-- ==== Sys2Proof/Word.lean ====
section
/-! DEFINITION. The byte, and the group of five bytes the block uses for a frequency payload and for a
byte-sequence result (R8 of `00_scope.md`, R12 and R14 of `10_state.md`). -/

namespace Sys2Proof

/-- An unsigned 8-bit value (R8). -/
abbrev Byte := BitVec 8

/-- Five bytes with indices 0 to 4: `OP_B[0..4]` (R12) and `RES_BYTES[0..4]` (R14). -/
structure Bytes5 where
  b0 : Byte
  b1 : Byte
  b2 : Byte
  b3 : Byte
  b4 : Byte
  deriving DecidableEq, Repr

/-- Five zero bytes. -/
def Bytes5.zero : Bytes5 := { b0 := 0, b1 := 0, b2 := 0, b3 := 0, b4 := 0 }

end Sys2Proof
end

