-- ==== Sys2Proof/Config.lean ====
section
/-! DEFINITION. The named parameters of R6 (`00_scope.md`), the three constant tables of R27 (`10_state.md`), the
answers of the two stream primitives, and the free answers of the environment (log entry 2). -/

namespace Sys2Proof

/-- What the environment answers to a `TxWrite` (R46). -/
inductive TxAnswer where
  /-- The transport has taken the byte. -/
  | ok
  /-- The write failed at the transport. -/
  | fail
  deriving DecidableEq, Repr

/-- What the environment answers to an `RxRead` (R47). -/
inductive RxAnswer where
  /-- A byte, consumed from the stream. -/
  | byte (b : Byte)
  /-- The transport's own time bound ran out. -/
  | timeout
  /-- The read failed at the transport, or the stream ended. -/
  | fail
  deriving DecidableEq, Repr

namespace Config

/-- `PREAMBLE`: the two bytes that open every frame (R6). -/
def preamble : List Byte := [0xFE, 0xFE]

/-- `TERM`: the byte that closes every frame (R6). -/
def term : Byte := 0xFD

/-- `LEADIN_BYTE`: the byte repeated in the power-on lead-in (R6). -/
def leadinByte : Byte := 0xFE

/-- `DST_ADDR`: what the hardwired register `CFG_DST` reads (R26). -/
def dstAddr : Byte := 0x88

/-- `SRC_ADDR`: what the hardwired register `CFG_SRC` reads (R26). -/
def srcAddr : Byte := 0xE0

/-- `OK_CODE`: the status byte that means OK (R6, R64). -/
def okCode : Byte := 0xFB

/-- `NG_CODE`: the status byte that means rejected (R6, R64). -/
def ngCode : Byte := 0xFA

/-- `STATUS_LEN`: the length of a status reply (R6, R64). -/
def statusLen : Nat := 6

/-- `STATUS_IDX`: the index of the status byte in a status reply (R6, R64). -/
def statusIdx : Nat := 4

/-- `BAUDS`: the legal baud rates in the order of the selectors 0 to 4 (R73). -/
def bauds : List Nat := [300, 1200, 4800, 9600, 19200]

/-- `LEADIN`: the lead-in count for each baud selector (R112); 17 at 4800 baud is the spec's figure (D35). -/
def leadin : List Nat := [2, 3, 17, 13, 25]

/-- `FREQ_BYTES`: the length of a frequency payload (R6). -/
def freqBytes : Nat := 5

/-- `FREQ_FIRST`: the index of the payload's first byte in a frequency reply (R6, R159). -/
def freqFirst : Nat := 5

/-- `FREQ_LAST`: the index of the payload's last byte in a frequency reply (R6, R159). -/
def freqLast : Nat := 9

/-- `FREQ_UNIT` in hertz: what one count of the frequency integer means (R94, D4). No rule of the block reads it. -/
def freqUnitHz : Nat := 10

/-- `FREQ_MAX`: the largest frequency integer the encoder accepts (R94). -/
def freqMax : Nat := 999999999

/-- `FREQ_W`: the decode weights for payload bytes `b4`, `b3`, `b2`, `b1`, `b0` (R95, conflict C2). -/
def freqW : List Nat := [100000000, 1000000, 10000, 100, 1]

/-- `MODE_TABLE`: the mode names and wire codes in the order of the selectors 0 to 9 (R72). -/
def modeTable : List (String × Byte) :=
  [("LSB", 0x00), ("USB", 0x01), ("AM", 0x02), ("CW", 0x03), ("RTTY", 0x04), ("FM", 0x05), ("WFM", 0x06),
   ("CW-R", 0x07), ("RTTY-R", 0x08), ("DV", 0x17)]

/-- `BANK_MIN`: the smallest legal memory bank (R71). -/
def bankMin : Nat := 1

/-- `BANK_MAX`: the largest legal memory bank (R71). -/
def bankMax : Nat := 5

/-- `CHAN_MAX`: the largest integer memory channel (R70). -/
def chanMax : Nat := 99

/-- `CHAN_SPECIAL`: the codes of the special channel names by index; index 0 is the name "1A" (R70, D17). -/
def chanSpecial : List (List Byte) := [[0x01, 0x00]]

/-- `PWR_ON_SUB` (R6). PRESUMED: general knowledge taken over by the spec (D16, G1); unsafe, log entry 10. -/
def pwrOnSub : Byte := 0x01

/-- `PWR_OFF_SUB` (R6). PRESUMED: general knowledge taken over by the spec (D16, G1); unsafe, log entry 10. -/
def pwrOffSub : Byte := 0x00

/-- `VFO_A_SUB` (R6). PRESUMED: general knowledge taken over by the spec (D16, G2); unsafe, log entry 10. -/
def vfoASub : Byte := 0x00

/-- `VFO_B_SUB` (R6). PRESUMED: general knowledge taken over by the spec (D16, G2); unsafe, log entry 10. -/
def vfoBSub : Byte := 0x01

/-- `TXMAX`: the capacity of `TXBUF` in bytes (R17, D8). -/
def txMax : Nat := 64

/-- `RXMAX`: the capacity of `RXBUF` in bytes and the byte budget of one frame read (R18, D8). -/
def rxMax : Nat := 64

/-- `DATA_MAX`: the largest data length BUILD accepts (R111, D8). -/
def dataMax : Nat := 32

/-- The environment's answer to the `n`-th `TxWrite` offered after the scripted answers ran out; `none` is no answer
yet. FREE: no body, so nothing about it can be proved (R46, U14; log entry 2). -/
opaque txDraw : Nat → Option TxAnswer

/-- The environment's answer to the `n`-th `RxRead` made after the scripted answers ran out; `none` is no answer yet.
FREE: no body, so nothing about it can be proved (R47, U13; log entry 2). -/
opaque rxDraw : Nat → Option RxAnswer

end Config

end Sys2Proof
end

