-- ==== Sys2Proof/Machine/Bcd.lean ====
section
/-! DEFINITION. The BCD nibble codec's number functions (R90 to R95 of `40_bcd_codec.md`) on unbounded naturals. -/

namespace Sys2Proof.Machine

/-- `DEC_BCD` with `fuel` nibbles at most (R90). -/
def decBcdFuel : Nat → Nat → Nat
  | 0, _ => 0
  | fuel + 1, x => if x = 0 then 0 else x % 16 + 10 * decBcdFuel fuel (x / 16)

/-- `DEC_BCD(x)` (R90): the nibbles of `x`, lowest first, at the places 1, 10, 100, and so on; a nibble 10 to 15 counts
with that digit value. A number `x` has at most `x` nibbles up to its highest nonzero one, so the fuel never runs out. -/
def decBcd (x : Nat) : Nat := decBcdFuel x x

/-- `ENC_BCD` with `fuel` digits at most (R91). -/
def encBcdFuel : Nat → Nat → Nat
  | 0, _ => 0
  | fuel + 1, v => if v = 0 then 0 else v % 10 + 16 * encBcdFuel fuel (v / 10)

/-- `ENC_BCD(v)` (R91): the decimal digits of `v`, lowest first, as nibbles. -/
def encBcd (v : Nat) : Nat := encBcdFuel v v

/-- The loop of R90 as the rule writes it, at most `fuel` rounds. -/
def decBcdLoop : Nat → Nat → Nat → Nat → Nat
  | 0, acc, _, _ => acc
  | fuel + 1, acc, place, x =>
    if x = 0 then acc else decBcdLoop fuel (acc + (x &&& 0xF) * place) (place * 10) (x >>> 4)

/-- The loop of R91 as the rule writes it, at most `fuel` rounds. -/
def encBcdLoop : Nat → Nat → Nat → Nat → Nat
  | 0, acc, _, _ => acc
  | fuel + 1, acc, shift, v =>
    if v = 0 then acc else encBcdLoop fuel (acc ||| ((v % 10) <<< shift)) (shift + 4) (v / 10)

/-- The byte that holds two decimal digits of `v`, `v <= 99` (R68). -/
def bcdByte (v : Nat) : Byte := BitVec.ofNat 8 (encBcd v)

/-- `BCD_BYTES(v, k)` (R93): `k` bytes of packed BCD, the least significant pair of digits first. -/
def bcdBytes (v : Nat) : Nat → List Byte
  | 0 => []
  | k + 1 => bcdByte (v % 100) :: bcdBytes (v / 100) k

/-- `FREQ_ENC(N)` (R94). -/
def freqEnc (n : Nat) : List Byte := bcdBytes n Config.freqBytes

/-- The weighted sum of decoded bytes, most significant byte first (R95). -/
def weighted (weights : List Nat) (bytes : List Byte) : Nat :=
  (List.zipWith (fun w b => decBcd b.toNat * w) weights bytes).sum

/-- `FREQ_DEC(b0, ..., b4)` (R95): `b4` pairs with the first weight, `b0` with the last. -/
def freqDec (b : Bytes5) : Nat := weighted Config.freqW [b.b4, b.b3, b.b2, b.b1, b.b0]

end Sys2Proof.Machine
end

