-- ==== Sys2Proof/Machine/Operands.lean ====
section
/-! DEFINITION. Operand assembly: the selector tables and the bytes they give (R70 to R73 of `30_encoding.md`; R96 to R98
of `40_bcd_codec.md`; R112 of `41_frame_builder.md`). `none` is "undefined": the caller of the function refuses. -/

namespace Sys2Proof.Machine

/-- `MODE_CODE(sel)` (R72, R96). -/
def modeCode (sel : BitVec 4) : Option Byte := (Config.modeTable[sel.toNat]?).map Prod.snd

/-- `MODE_NAME(b)` (R96): the key is the BCD-decoded byte, 17 for DV. -/
def modeName (b : Byte) : Option (BitVec 4) :=
  let d := decBcd b.toNat
  if d ≤ 8 then some (BitVec.ofNat 4 d)
  else if d = 17 then some 9
  else none

/-- `CHAN_BYTES(kind, val)` (R70, R97). -/
def chanBytes (special : Bool) (val : Byte) : Option (List Byte) :=
  if special then Config.chanSpecial[val.toNat]?
  else if val.toNat ≤ Config.chanMax then some [bcdByte val.toNat]
  else none

/-- `BANK_BYTE(i)` (R71, R98). -/
def bankByte (bank : Byte) : Option Byte :=
  if Config.bankMin ≤ bank.toNat ∧ bank.toNat ≤ Config.bankMax then some bank else none

/-- `LEADIN_COUNT(sel)` (R73, R112). -/
def leadinCount (baud : BitVec 3) : Option Nat := Config.leadin[baud.toNat]?

/-- The payload of a frequency operand; none above `FREQ_MAX` (R69, R101). -/
def freqBytes (n : BitVec 30) : Option (List Byte) :=
  if n.toNat ≤ Config.freqMax then some (freqEnc n.toNat) else none

/-- A byte list in the five registers `RES_BYTES[0..4]`; registers past its end are 0, as acceptance left them (R14). -/
def bytes5Of (bs : List Byte) : Bytes5 :=
  { b0 := bs.getD 0 0, b1 := bs.getD 1 0, b2 := bs.getD 2 0, b3 := bs.getD 3 0, b4 := bs.getD 4 0 }

end Sys2Proof.Machine
end

