-- ==== Sys2Proof/Syntax.lean ====
section
/-! DEFINITION. The operations of the block, one constructor per row of the operation table (R67 of `30_encoding.md`),
with the operand fields of R12 (`10_state.md`) at their stated widths, and the raw request record that the request port
carries and the request latch holds (R12). -/

namespace Sys2Proof

/-- One request the block knows (R67). A field keeps every value its operand register can hold: a selector outside its
legal range is an operand like any other, and the operation refuses it (R79). -/
inductive Instr where
  /-- BCD.DEC (R99): decode the packed BCD value `OP_X`. -/
  | bcdDec (x : BitVec 20)
  /-- BCD.ENC (R100): encode the number `OP_V`. -/
  | bcdEnc (v : BitVec 16)
  /-- FREQ.ENC (R101): the five payload bytes of the frequency `OP_N`. -/
  | freqEnc (n : BitVec 30)
  /-- FREQ.DEC (R102): the frequency of the payload `OP_B[0..4]`. -/
  | freqDec (b : Bytes5)
  /-- MODE.ENC (R103): the wire code of the mode `OP_MODE_SEL`. -/
  | modeEnc (sel : BitVec 4)
  /-- MODE.DEC (R104): the mode of the wire code `OP_B[0]`. -/
  | modeDec (b0 : Byte)
  /-- CHAN.ENC (R105): the data bytes of a channel; `special` is `OP_CHAN_KIND = 1`. -/
  | chanEnc (special : Bool) (val : Byte)
  /-- BANK.ENC (R106): the data byte of the bank `OP_BANK`. -/
  | bankEnc (bank : Byte)
  /-- BUILD (R111): a frame from `OP_CMD`, `OP_HAS_SUB`, `OP_SUB`, `OP_DLEN` and `OP_DATA`. -/
  | build (cmd : Byte) (hasSub : Bool) (sub : Byte) (dlen : BitVec 6) (data : List Byte)
  /-- BUILD.PWRON (R112): the power-on sequence for `OP_BAUD_SEL`. -/
  | buildPwron (baud : BitVec 3)
  /-- EXEC (R121): the transaction of what `TXBUF` holds. -/
  | execute
  /-- PWR.OFF (R152). -/
  | pwrOff
  /-- PWR.ON (R153). -/
  | pwrOn (baud : BitVec 3)
  /-- VFO.A (R154). -/
  | vfoA
  /-- VFO.B (R155). -/
  | vfoB
  /-- MEM.MODE (R156). -/
  | memMode
  /-- MEM.BANK (R157). -/
  | memBank (bank : Byte)
  /-- MEM.CHAN (R158); `special` is `OP_CHAN_KIND = 1`. -/
  | memChan (special : Bool) (val : Byte)
  /-- FREQ.RD (R159). -/
  | freqRd
  /-- FREQ.SET (R160). -/
  | freqSet (n : BitVec 30)
  /-- MODE.RD (R161). -/
  | modeRd
  /-- MODE.SET (R162). -/
  | modeSet (sel : BitVec 4)
  /-- PTT.RX (R163). -/
  | pttRx
  /-- PTT.TX (R164). -/
  | pttTx
  deriving DecidableEq, Repr

/-- The request record: `OPID` and every operand line of R12, at the stated widths. The request port carries one and
the request latch holds one. `data` is `OP_DATA[0..DATA_MAX-1]`, a list of `DATA_MAX` bytes. -/
structure Request where
  opid     : BitVec 8
  x        : BitVec 20
  v        : BitVec 16
  n        : BitVec 30
  b        : Bytes5
  modeSel  : BitVec 4
  baudSel  : BitVec 3
  chanKind : Bool
  chanVal  : BitVec 8
  bank     : BitVec 8
  cmd      : BitVec 8
  hasSub   : Bool
  sub      : BitVec 8
  dlen     : BitVec 6
  data     : List Byte
  deriving DecidableEq, Repr

/-- The record with every line at zero. -/
def Request.zero : Request :=
  { opid := 0, x := 0, v := 0, n := 0, b := Bytes5.zero, modeSel := 0, baudSel := 0, chanKind := false, chanVal := 0
    bank := 0, cmd := 0, hasSub := false, sub := 0, dlen := 0, data := List.replicate Config.dataMax 0 }

end Sys2Proof
end

