-- ==== Sys2Proof/WellFormed.lean ====
section
/-! DEFINITION. Which terms of `Instr` and `Request` stand for a request at all: every operand has exactly the lines
R12 (`10_state.md`) gives it. All operands but `OP_DATA` have their width in their type. Legality of selectors is no
part of this: an illegal selector is a well-formed request that the operation refuses (R79, `30_encoding.md`). -/

namespace Sys2Proof

/-- `OP_DATA` has `DATA_MAX` byte registers (R12). -/
def dataLines (data : List Byte) : Bool := data.length == Config.dataMax

/-- The operands have the lines R12 gives them. -/
def Instr.wellFormed : Instr → Bool
  | .bcdDec _ => true
  | .bcdEnc _ => true
  | .freqEnc _ => true
  | .freqDec _ => true
  | .modeEnc _ => true
  | .modeDec _ => true
  | .chanEnc _ _ => true
  | .bankEnc _ => true
  | .build _ _ _ _ data => dataLines data
  | .buildPwron _ => true
  | .execute => true
  | .pwrOff => true
  | .pwrOn _ => true
  | .vfoA => true
  | .vfoB => true
  | .memMode => true
  | .memBank _ => true
  | .memChan _ _ => true
  | .freqRd => true
  | .freqSet _ => true
  | .modeRd => true
  | .modeSet _ => true
  | .pttRx => true
  | .pttTx => true

/-- The record has the lines R12 gives it. -/
def Request.wellFormed (r : Request) : Bool := dataLines r.data

end Sys2Proof
end

