-- ==== Sys2Proof/Decode.lean ====
section
/-! DEFINITION. The request encoding (R67, R78 of `30_encoding.md`; R12 of `10_state.md`): the operation numbers, the
decoder from a request record to an operation, the encoder, and the numbering of a record's bits that the fixed
function `decodeTableWord` needs. The spec numbers only the 8 bits of `OPID`; the order of the operand lines above them
is a DESIGN CHOICE, safe (log entry 5). -/

namespace Sys2Proof

/-! ## Operation numbers (R67) -/

def Opid.bcdDec : Byte := 0x01
def Opid.bcdEnc : Byte := 0x02
def Opid.freqEnc : Byte := 0x03
def Opid.freqDec : Byte := 0x04
def Opid.modeEnc : Byte := 0x05
def Opid.modeDec : Byte := 0x06
def Opid.chanEnc : Byte := 0x07
def Opid.bankEnc : Byte := 0x08
def Opid.build : Byte := 0x10
def Opid.buildPwron : Byte := 0x11
def Opid.execute : Byte := 0x20
def Opid.pwrOff : Byte := 0x30
def Opid.pwrOn : Byte := 0x31
def Opid.vfoA : Byte := 0x32
def Opid.vfoB : Byte := 0x33
def Opid.memMode : Byte := 0x34
def Opid.memBank : Byte := 0x35
def Opid.memChan : Byte := 0x36
def Opid.freqRd : Byte := 0x37
def Opid.freqSet : Byte := 0x38
def Opid.modeRd : Byte := 0x39
def Opid.modeSet : Byte := 0x3A
def Opid.pttRx : Byte := 0x3B
def Opid.pttTx : Byte := 0x3C

/-! ## Decoding -/

/-- Why a request record is no operation of the table. -/
inductive DecodeError where
  /-- The `OPID` is not listed in R67 (R78). The block accepts such a request and completes it with UnsupportedValue. -/
  | reservedOpid (opid : Byte)
  deriving DecidableEq, Repr

/-- The operation a request record asks for, with the fields that operation uses (R67); a reserved `OPID` is rejected
by name (R78). Lines the operation does not use are ignored (R12). -/
def decode (r : Request) : Except DecodeError Instr :=
  if r.opid = Opid.bcdDec then .ok (.bcdDec r.x)
  else if r.opid = Opid.bcdEnc then .ok (.bcdEnc r.v)
  else if r.opid = Opid.freqEnc then .ok (.freqEnc r.n)
  else if r.opid = Opid.freqDec then .ok (.freqDec r.b)
  else if r.opid = Opid.modeEnc then .ok (.modeEnc r.modeSel)
  else if r.opid = Opid.modeDec then .ok (.modeDec r.b.b0)
  else if r.opid = Opid.chanEnc then .ok (.chanEnc r.chanKind r.chanVal)
  else if r.opid = Opid.bankEnc then .ok (.bankEnc r.bank)
  else if r.opid = Opid.build then .ok (.build r.cmd r.hasSub r.sub r.dlen r.data)
  else if r.opid = Opid.buildPwron then .ok (.buildPwron r.baudSel)
  else if r.opid = Opid.execute then .ok .execute
  else if r.opid = Opid.pwrOff then .ok .pwrOff
  else if r.opid = Opid.pwrOn then .ok (.pwrOn r.baudSel)
  else if r.opid = Opid.vfoA then .ok .vfoA
  else if r.opid = Opid.vfoB then .ok .vfoB
  else if r.opid = Opid.memMode then .ok .memMode
  else if r.opid = Opid.memBank then .ok (.memBank r.bank)
  else if r.opid = Opid.memChan then .ok (.memChan r.chanKind r.chanVal)
  else if r.opid = Opid.freqRd then .ok .freqRd
  else if r.opid = Opid.freqSet then .ok (.freqSet r.n)
  else if r.opid = Opid.modeRd then .ok .modeRd
  else if r.opid = Opid.modeSet then .ok (.modeSet r.modeSel)
  else if r.opid = Opid.pttRx then .ok .pttRx
  else if r.opid = Opid.pttTx then .ok .pttTx
  else .error (.reservedOpid r.opid)

/-! ## Encoding -/

/-- The record `r` with `OPID` and the lines of `i`'s operands driven for `i`, every other line as in `r` (R12, R67). -/
def Instr.drive (i : Instr) (r : Request) : Request :=
  match i with
  | .bcdDec x => { r with opid := Opid.bcdDec, x := x }
  | .bcdEnc v => { r with opid := Opid.bcdEnc, v := v }
  | .freqEnc n => { r with opid := Opid.freqEnc, n := n }
  | .freqDec b => { r with opid := Opid.freqDec, b := b }
  | .modeEnc sel => { r with opid := Opid.modeEnc, modeSel := sel }
  | .modeDec b0 => { r with opid := Opid.modeDec, b := { r.b with b0 := b0 } }
  | .chanEnc special val => { r with opid := Opid.chanEnc, chanKind := special, chanVal := val }
  | .bankEnc bank => { r with opid := Opid.bankEnc, bank := bank }
  | .build cmd hasSub sub dlen data =>
      { r with opid := Opid.build, cmd := cmd, hasSub := hasSub, sub := sub, dlen := dlen, data := data }
  | .buildPwron baud => { r with opid := Opid.buildPwron, baudSel := baud }
  | .execute => { r with opid := Opid.execute }
  | .pwrOff => { r with opid := Opid.pwrOff }
  | .pwrOn baud => { r with opid := Opid.pwrOn, baudSel := baud }
  | .vfoA => { r with opid := Opid.vfoA }
  | .vfoB => { r with opid := Opid.vfoB }
  | .memMode => { r with opid := Opid.memMode }
  | .memBank bank => { r with opid := Opid.memBank, bank := bank }
  | .memChan special val => { r with opid := Opid.memChan, chanKind := special, chanVal := val }
  | .freqRd => { r with opid := Opid.freqRd }
  | .freqSet n => { r with opid := Opid.freqSet, n := n }
  | .modeRd => { r with opid := Opid.modeRd }
  | .modeSet sel => { r with opid := Opid.modeSet, modeSel := sel }
  | .pttRx => { r with opid := Opid.pttRx }
  | .pttTx => { r with opid := Opid.pttTx }

/-- The request record of an operation, lines it does not use at zero (R12 lets them be anything). -/
def encode (i : Instr) : Request := i.drive Request.zero

/-! ## The bits of a record as one number

Bit 0 is the least significant bit of `OPID`; the lines follow in the order R12 lists them, each with its least
significant bit lowest. -/

/-- How many bits a record has: the widths of R12 added up. -/
def requestBits : Nat := 8 + 20 + 16 + 30 + 40 + 4 + 3 + 1 + 8 + 8 + 8 + 1 + 8 + 6 + 8 * Config.dataMax

/-- One bit as a number. -/
def bitNat (b : Bool) : Nat := if b then 1 else 0

/-- A byte list as a number, the first byte lowest. -/
def bytesToNat : List Byte → Nat
  | [] => 0
  | b :: bs => b.toNat + 2 ^ 8 * bytesToNat bs

/-- The `k` lowest bytes of a number, the lowest first. -/
def bytesOfNat : Nat → Nat → List Byte
  | 0, _ => []
  | k + 1, w => BitVec.ofNat 8 w :: bytesOfNat k (w / 2 ^ 8)

/-- The bits of a record as one number. -/
def Request.toWord (r : Request) : Nat :=
  r.opid.toNat + 2 ^ 8 * (r.x.toNat + 2 ^ 20 * (r.v.toNat + 2 ^ 16 * (r.n.toNat + 2 ^ 30 *
    (r.b.b0.toNat + 2 ^ 8 * (r.b.b1.toNat + 2 ^ 8 * (r.b.b2.toNat + 2 ^ 8 * (r.b.b3.toNat + 2 ^ 8 *
    (r.b.b4.toNat + 2 ^ 8 * (r.modeSel.toNat + 2 ^ 4 * (r.baudSel.toNat + 2 ^ 3 * (bitNat r.chanKind + 2 ^ 1 *
    (r.chanVal.toNat + 2 ^ 8 * (r.bank.toNat + 2 ^ 8 * (r.cmd.toNat + 2 ^ 8 * (bitNat r.hasSub + 2 ^ 1 *
    (r.sub.toNat + 2 ^ 8 * (r.dlen.toNat + 2 ^ 6 * bytesToNat r.data)))))))))))))))))

/-- The record whose bits are the number `w`, bits above the record's ignored. -/
def Request.ofWord (w : Nat) : Request :=
  let wx := w / 2 ^ 8
  let wv := wx / 2 ^ 20
  let wn := wv / 2 ^ 16
  let w0 := wn / 2 ^ 30
  let w1 := w0 / 2 ^ 8
  let w2 := w1 / 2 ^ 8
  let w3 := w2 / 2 ^ 8
  let w4 := w3 / 2 ^ 8
  let wMode := w4 / 2 ^ 8
  let wBaud := wMode / 2 ^ 4
  let wKind := wBaud / 2 ^ 3
  let wVal := wKind / 2 ^ 1
  let wBank := wVal / 2 ^ 8
  let wCmd := wBank / 2 ^ 8
  let wHas := wCmd / 2 ^ 8
  let wSub := wHas / 2 ^ 1
  let wLen := wSub / 2 ^ 8
  { opid := BitVec.ofNat 8 w
    x := BitVec.ofNat 20 wx
    v := BitVec.ofNat 16 wv
    n := BitVec.ofNat 30 wn
    b := { b0 := BitVec.ofNat 8 w0, b1 := BitVec.ofNat 8 w1, b2 := BitVec.ofNat 8 w2, b3 := BitVec.ofNat 8 w3
           b4 := BitVec.ofNat 8 w4 }
    modeSel := BitVec.ofNat 4 wMode
    baudSel := BitVec.ofNat 3 wBaud
    chanKind := wKind % 2 == 1
    chanVal := BitVec.ofNat 8 wVal
    bank := BitVec.ofNat 8 wBank
    cmd := BitVec.ofNat 8 wCmd
    hasSub := wHas % 2 == 1
    sub := BitVec.ofNat 8 wSub
    dlen := BitVec.ofNat 6 wLen
    data := bytesOfNat Config.dataMax (wLen / 2 ^ 6) }

/-- The operation a number of `requestBits` bits stands for. -/
def decodeWord (w : Nat) : Except DecodeError Instr := decode (Request.ofWord w)

/-- The number an operation is encoded as. -/
def encodeWord (i : Instr) : Nat := (encode i).toWord

/-- The operation read from the `nbits` lowest bits of `w`, every higher bit of the request being 0; none where the
decoder rejects. -/
def decodeTableWord (nbits w : Nat) : Option Instr :=
  match decodeWord (w % 2 ^ nbits) with
  | .ok i => some i
  | .error _ => none

end Sys2Proof
end

