-- ==== Sys2Proof/Machine/State.lean ====
section
/-! DEFINITION. The state of the block (R11 of `10_state.md`), the model's own fields for the caller, the environment
and the observable trace, the reasons a step can stop, and the state after reset (R32, R200). Plain data only. -/

namespace Sys2Proof.Machine

/-- The sequencer register `PHASE` (R19). -/
inductive Phase where
  /-- No transaction in progress. -/
  | idle
  /-- Writing the bytes of `TXBUF`. -/
  | tx
  /-- Reading the first response, the echo. -/
  | rxEcho
  /-- Reading the second response, the reply. -/
  | rxReply
  deriving DecidableEq, Repr

/-- The verdict on a completed reply, `STATUS.OUTCOME` (R21, R23). -/
inductive TxnOutcome where
  | noOutcome
  | ok
  | rejected
  | data
  | anomalous
  deriving DecidableEq, Repr

/-- The error an operation ends with, `STATUS.ERR` (R21, R170). -/
inductive ErrCode where
  | noError
  | transportUnavailable
  | echoMismatch
  | rejected
  | malformedResponse
  | unsupportedValue
  | timeout
  deriving DecidableEq, Repr

/-- The fields of the register `STATUS` (R21). The reserved bits have no storage: they read as 0 (`statusWord`). -/
structure Status where
  busy    : Bool
  done    : Bool
  em      : Bool
  outcome : TxnOutcome
  err     : ErrCode
  errph   : Phase
  deriving DecidableEq, Repr

/-- `STATUS = 0x0000` (R32). -/
def Status.zero : Status :=
  { busy := false, done := false, em := false, outcome := .noOutcome, err := .noError, errph := .idle }

/-- The result registers (R14). -/
structure Results where
  value     : BitVec 34
  bytes     : Bytes5
  blen      : BitVec 3
  modeSel   : BitVec 4
  filter    : BitVec 8
  hasFilter : Bool
  deriving DecidableEq, Repr

/-- Every result register at 0 (R14, R25). -/
def Results.zero : Results :=
  { value := 0, bytes := Bytes5.zero, blen := 0, modeSel := 0, filter := 0, hasFilter := false }

/-- The two buffers (R17, R18, R40). `txbuf` is `TXBUF[0 .. TXLEN-1]` and `rxbuf` is `RXBUF[0 .. RXLEN-1]`; the bytes at
and above the lengths have no defined value and are not held (R201; log entry 8). -/
structure Memory where
  txbuf : List Byte
  rxbuf : List Byte
  deriving DecidableEq, Repr

/-- The environment's coming answers (R46, R47). An entry `none` is a moment in which it does not answer yet. When a
list has run out, further answers are free: `Config.txDraw` and `Config.rxDraw` at the counter `drawn` (log entry 2). -/
structure Env where
  tx    : List (Option TxAnswer)
  rx    : List (Option RxAnswer)
  drawn : Nat
  deriving DecidableEq, Repr

/-- One event of the observable trace with the environment's answer (R133). -/
inductive Event where
  /-- `W(b, a)`: the byte `b` was offered to `TxWrite` and answered `a`. -/
  | wrote (b : Byte) (a : TxAnswer)
  /-- `R(a)`: an `RxRead` was answered `a`. -/
  | got (a : RxAnswer)
  deriving DecidableEq, Repr

/-- The machine. `latch` to `status` are the block's state (R11); `port`, `env` and `trace` are the model's own: the
caller's requests, the environment's answers, and the trace of the current or last operation (log entries 2, 4, 9). -/
structure State where
  latch   : Request
  results : Results
  mem     : Memory
  txi     : BitVec 7
  echolen : BitVec 7
  phase   : Phase
  status  : Status
  port    : List Request
  env     : Env
  trace   : List Event
  deriving DecidableEq, Repr

/-- Why the machine stops. -/
inductive Fault where
  /-- Raised by `step` in a state for which the transition table R130 has no row: `PHASE = IDLE` with `BUSY = 1`, TX with
  `TXI >= TXLEN`, or a read phase with `RXLEN >= RXMAX`. No run from reset reaches one. Safe (log entry 11). -/
  | noTransition
  deriving DecidableEq, Repr

/-- Why an instruction is not run. -/
inductive Refusal where
  /-- Raised by `exec` for an instruction that has no meaning in the model, by name; every instruction has one, so no arm
  raises it. Safe. -/
  | notModelled (mnemonic : String)
  deriving DecidableEq, Repr

/-- The state after reset (R32, R200). The operand registers are unspecified by the spec and hold 0 here: DESIGN CHOICE,
unsafe, log entry 6. The buffers' unspecified contents are not held. No request is presented and no answer is scripted:
DESIGN CHOICE, log entries 2 and 4. -/
def State.reset : State :=
  { latch := Request.zero
    results := Results.zero
    mem := { txbuf := [], rxbuf := [] }
    txi := 0
    echolen := 0
    phase := .idle
    status := Status.zero
    port := []
    env := { tx := [], rx := [], drawn := 0 }
    trace := [] }

end Sys2Proof.Machine
end

