-- ==== Sys2Proof/Machine/Flags.lean ====
section
/-! DEFINITION. The `STATUS` register as a word (R21 of `10_state.md`, R170 of `60_exceptions.md`), and the computations
behind its fields: the echo comparison (R125), the classification (R127 of `42_transaction_engine.md`) and the priority of
errors (R179 of `60_exceptions.md`). -/

namespace Sys2Proof.Machine

/-! ## Codes -/

/-- The code of a phase (R19). -/
def phaseCode : Phase → Nat
  | .idle => 0
  | .tx => 1
  | .rxEcho => 2
  | .rxReply => 3

/-- The code of an outcome (R21). -/
def outcomeCode : TxnOutcome → Nat
  | .noOutcome => 0
  | .ok => 1
  | .rejected => 2
  | .data => 3
  | .anomalous => 4

/-- The code of an error (R21, R170). -/
def errCode : ErrCode → Nat
  | .noError => 0
  | .transportUnavailable => 1
  | .echoMismatch => 2
  | .rejected => 3
  | .malformedResponse => 4
  | .unsupportedValue => 5
  | .timeout => 6

/-- A flag as a number. -/
def flagCode (b : Bool) : Nat := if b then 1 else 0

/-- The 16-bit register `STATUS` (R21): bits 15:11 read as 0. -/
def statusWord (st : Status) : BitVec 16 :=
  BitVec.ofNat 16 (flagCode st.busy + 2 * flagCode st.done + 4 * flagCode st.em + 8 * outcomeCode st.outcome +
    64 * errCode st.err + 512 * phaseCode st.errph)

/-! ## The computations behind the fields -/

/-- `CLASSIFY(r)` (R127): the length and one byte decide. -/
def classify (r : List Byte) : TxnOutcome :=
  if r.length = Config.statusLen then
    if r[Config.statusIdx]? = some Config.okCode then .ok
    else if r[Config.statusIdx]? = some Config.ngCode then .rejected
    else .anomalous
  else .data

/-- `ECHO_EQ` (R125): the whole sequences, lengths included. -/
def echoEqual (echo sent : List Byte) : Bool := echo == sent

/-- What an interpretation returns (R150): nothing to object, or MalformedResponse. -/
inductive Verdict where
  | fine
  | malformed
  deriving DecidableEq, Repr

/-- `FINAL_ERR(o, em, verdict)` (R179): the error and the phase it is charged to. -/
def finalErr (o : TxnOutcome) (em : Bool) (v : Verdict) : ErrCode × Phase :=
  if v = .malformed then (.malformedResponse, .rxReply)
  else if o = .anomalous then (.malformedResponse, .rxReply)
  else if o = .rejected then (.rejected, .rxReply)
  else if em then (.echoMismatch, .rxEcho)
  else (.noError, .idle)

end Sys2Proof.Machine
end

