-- ==== Sys2Proof/Machine/Ops.lean ====
section
/-! DEFINITION. The named operations over the registers, the buffers, the request port and the two streams, and the one
shared operation that takes an error (R181, R182 of `60_exceptions.md`). The spec has no return from an error (R183). -/

namespace Sys2Proof.Machine

/-! ## Buffers and their lengths (R17, R18, R40 to R42) -/

/-- The buffers keep within their capacities (R52). -/
def Memory.wf (m : Memory) : Bool := decide (m.txbuf.length ≤ Config.txMax) && decide (m.rxbuf.length ≤ Config.rxMax)

/-- `TXBUF[i]`; no value at or above `TXLEN` (R17). -/
def Memory.txAt (m : Memory) (i : Nat) : Option Byte := m.txbuf[i]?

/-- `RXBUF[i]`; no value at or above `RXLEN` (R18). -/
def Memory.rxAt (m : Memory) (i : Nat) : Option Byte := m.rxbuf[i]?

/-- `TXBUF[0 .. len(f)-1] <- f ; TXLEN <- len(f)` (R111, R112, R150). -/
def Memory.setTx (m : Memory) (f : List Byte) : Memory := { m with txbuf := f }

/-- `RXBUF[RXLEN] <- b ; RXLEN <- RXLEN + 1` (R124). -/
def Memory.pushRx (m : Memory) (b : Byte) : Memory := { m with rxbuf := m.rxbuf ++ [b] }

/-- `RXLEN <- 0` (R121, R125). -/
def Memory.clearRx (m : Memory) : Memory := { m with rxbuf := [] }

/-- The register `TXLEN` (R17). -/
def State.txlen (s : State) : BitVec 7 := BitVec.ofNat 7 s.mem.txbuf.length

/-- The register `RXLEN` (R18). -/
def State.rxlen (s : State) : BitVec 7 := BitVec.ofNat 7 s.mem.rxbuf.length

/-- The hardwired register `CFG_DST` (R26): it reads the same in every state. -/
def State.cfgDst (_ : State) : Byte := Config.dstAddr

/-- The hardwired register `CFG_SRC` (R26): it reads the same in every state. -/
def State.cfgSrc (_ : State) : Byte := Config.srcAddr

/-! ## Acceptance and completion (R25, R120) -/

/-- `STATUS` as acceptance leaves it (R25). -/
def Status.accepted : Status := { Status.zero with busy := true }

/-- A request can be accepted in this state (R25, R120). -/
def State.acceptable (s : State) : Bool := decide (s.phase = .idle) && !s.status.busy

/-- Acceptance of the request `i` (R25): `STATUS` and the results are cleared and the operand registers take the
request's fields. The trace of the new operation begins (R133). -/
def State.accept (i : Instr) (s : State) : State :=
  { s with latch := i.drive s.latch, results := Results.zero, status := Status.accepted, trace := [] }

/-- Completion (R25). -/
def State.complete (s : State) : State :=
  { s with status := { s.status with busy := false, done := true }, phase := .idle }

/-- An operation that is performed from the state after its acceptance by `body` (R25). Where no request can be accepted
the request is held and nothing changes (R120). -/
def State.onAccept (i : Instr) (body : State → State) (s : State) : Host.Outcome State Fault Refusal :=
  if s.acceptable then .next (body (s.accept i)) else .next s

/-! ## Errors (R181, R182) -/

/-- `raise e` (R181): the error and the phase it arose in are recorded and the operation completes; nothing else is
written. Before any I/O, `PHASE` being IDLE, this is `refuse e` (R182). -/
def State.raise (e : ErrCode) (s : State) : State :=
  State.complete { s with status := { s.status with err := e, errph := s.phase } }

/-- `body` on the value of an operand function, or the refusal UnsupportedValue where it is undefined (R79, R176). -/
def State.refuseUnless {α : Type} (operand : Option α) (body : α → State → State) (s : State) : State :=
  match operand with
  | some a => body a s
  | none => s.raise .unsupportedValue

/-! ## The stream primitives (R46, R47) -/

/-- The environment's answer to the next `TxWrite` and the environment after it; `none` is no answer yet. -/
def Env.nextTx (e : Env) : Option TxAnswer × Env :=
  match e.tx with
  | a :: rest => (a, { e with tx := rest })
  | [] => (Config.txDraw e.drawn, { e with drawn := e.drawn + 1 })

/-- The environment's answer to the next `RxRead` and the environment after it; `none` is no answer yet. -/
def Env.nextRx (e : Env) : Option RxAnswer × Env :=
  match e.rx with
  | a :: rest => (a, { e with rx := rest })
  | [] => (Config.rxDraw e.drawn, { e with drawn := e.drawn + 1 })

/-- The event is added to the observable trace (R133). -/
def State.log (ev : Event) (s : State) : State := { s with trace := s.trace ++ [ev] }

/-- `TxWrite(b)` (R46): the answer and the state in which the block goes on. -/
def State.txWrite (b : Byte) (s : State) : Option TxAnswer × State :=
  match s.env.nextTx with
  | (some a, e) => (some a, State.log (.wrote b a) { s with env := e })
  | (none, e) => (none, { s with env := e })

/-- `RxRead()` (R47): the answer and the state in which the block goes on. -/
def State.rxRead (s : State) : Option RxAnswer × State :=
  match s.env.nextRx with
  | (some a, e) => (some a, State.log (.got a) { s with env := e })
  | (none, e) => (none, { s with env := e })

/-! ## The request port (R12, R120, R207) -/

/-- The request presented now, and the state with that record in the operand registers and the port moved on to the
caller's next request; none when nothing is presented. -/
def State.fetch (s : State) : Option (Request × State) :=
  match s.port with
  | [] => none
  | r :: rest => some (r, { s with port := rest, latch := r })

/-- The request `r` is presented ahead of all others, in a state that can accept it. -/
def State.present (s : State) (r : Request) : State :=
  { s with port := r :: s.port, phase := .idle, status := { s.status with busy := false } }

/-- A request with a reserved `OPID`, its record already in the operand registers (R78): accepted, and completed at once
with UnsupportedValue. -/
def State.refuseReserved (s : State) : State :=
  State.raise .unsupportedValue
    { s with results := Results.zero, status := Status.accepted, trace := [] }

/-! ## Reset from outside (R203) -/

/-- Reset asserted in state `s`: the state of R200 whatever `PHASE` was (R203). What the environment will answer and what
the caller will present are outside the block and stay; answers already consumed stay consumed. -/
def State.assertReset (s : State) : State := { State.reset with port := s.port, env := s.env }

end Sys2Proof.Machine
end

