-- ==== Sys2Proof/Machine/Codec.lean ====
section
/-! DEFINITION. The eight codec operations (R99 to R106 of `40_bcd_codec.md`): acceptance, one write of result registers or
an error, completion. None does I/O or touches a buffer. -/

namespace Sys2Proof.Machine

/-- A numeric result, and completion. -/
def State.completeValue (v : Nat) (s : State) : State :=
  State.complete { s with results := { s.results with value := BitVec.ofNat 34 v } }

/-- A byte-sequence result, and completion. -/
def State.completeBytes (bs : List Byte) (s : State) : State :=
  State.complete
    { s with results := { s.results with bytes := bytes5Of bs, blen := BitVec.ofNat 3 bs.length } }

/-- BCD.DEC (R99). -/
def execBcdDec (x : BitVec 20) (s : State) : Host.Outcome State Fault Refusal :=
  s.onAccept (.bcdDec x) fun s => s.completeValue (decBcd x.toNat)

/-- BCD.ENC (R100). -/
def execBcdEnc (v : BitVec 16) (s : State) : Host.Outcome State Fault Refusal :=
  s.onAccept (.bcdEnc v) fun s => s.completeValue (encBcd v.toNat)

/-- FREQ.ENC (R101). -/
def execFreqEnc (n : BitVec 30) (s : State) : Host.Outcome State Fault Refusal :=
  s.onAccept (.freqEnc n) (State.refuseUnless (freqBytes n) State.completeBytes)

/-- FREQ.DEC (R102). -/
def execFreqDec (b : Bytes5) (s : State) : Host.Outcome State Fault Refusal :=
  s.onAccept (.freqDec b) fun s => s.completeValue (freqDec b)

/-- MODE.ENC (R103). -/
def execModeEnc (sel : BitVec 4) (s : State) : Host.Outcome State Fault Refusal :=
  s.onAccept (.modeEnc sel) (State.refuseUnless (modeCode sel) fun c s => s.completeBytes [c])

/-- The mode of a wire code as a result, or MalformedResponse for an unknown code (R104). -/
def State.completeMode (b0 : Byte) (s : State) : State :=
  match modeName b0 with
  | some sel => State.complete { s with results := { s.results with modeSel := sel } }
  | none => s.raise .malformedResponse

/-- MODE.DEC (R104): an unknown code is MalformedResponse, with `ERRPH` 0. -/
def execModeDec (b0 : Byte) (s : State) : Host.Outcome State Fault Refusal :=
  s.onAccept (.modeDec b0) (State.completeMode b0)

/-- CHAN.ENC (R105). -/
def execChanEnc (special : Bool) (val : Byte) (s : State) : Host.Outcome State Fault Refusal :=
  s.onAccept (.chanEnc special val) (State.refuseUnless (chanBytes special val) State.completeBytes)

/-- BANK.ENC (R106). -/
def execBankEnc (bank : Byte) (s : State) : Host.Outcome State Fault Refusal :=
  s.onAccept (.bankEnc bank) (State.refuseUnless (bankByte bank) fun c s => s.completeBytes [c])

end Sys2Proof.Machine
end

