-- ==== Sys2Proof/Machine/Frame.lean ====
section
/-! DEFINITION. The Frame Builder's functions (R60, R63 of `30_encoding.md`; R110, R112, R113 of `41_frame_builder.md`). -/

namespace Sys2Proof.Machine

/-- A sub-command as bytes: none or one (R110). -/
def subBytes : Option Byte → List Byte
  | none => []
  | some b => [b]

/-- `FRAME(dst, src, cmd, sub, data)` (R110). -/
def frame (dst src cmd : Byte) (sub : Option Byte) (data : List Byte) : List Byte :=
  Config.preamble ++ [dst, src, cmd] ++ subBytes sub ++ data ++ [Config.term]

/-- `WELLFORMED(dst, src, cmd, sub, data)` (R113): the terminator's value stands in none of the positions. -/
def frameWellformed (dst src cmd : Byte) (sub : Option Byte) (data : List Byte) : Bool :=
  ([dst, src, cmd] ++ subBytes sub ++ data).all (fun b => b != Config.term)

/-- The prefixed form of R63: `k` lead-in bytes and then the frame. -/
def withLeadin (k : Nat) (f : List Byte) : List Byte := List.replicate k Config.leadinByte ++ f

end Sys2Proof.Machine
end

