-- ==== Sys2Proof/Machine/Builder.lean ====
section
/-! DEFINITION. The Frame Builder's operations (R111, R112 of `41_frame_builder.md`). Neither does I/O. -/

namespace Sys2Proof.Machine

/-- The frame with the addresses the registers `CFG_DST` and `CFG_SRC` hold (R26, R110). -/
def State.frameFor (cmd : Byte) (sub : Option Byte) (data : List Byte) (s : State) : List Byte :=
  frame s.cfgDst s.cfgSrc cmd sub data

/-- `TXBUF <- f ; TXLEN <- len(f)` (R111, R112). -/
def State.loadTx (f : List Byte) (s : State) : State := { s with mem := s.mem.setTx f }

/-- The sub-command BUILD's operands give: `OP_SUB` is read only when `OP_HAS_SUB = 1` (R111). -/
def buildSub (hasSub : Bool) (sub : Byte) : Option Byte := if hasSub then some sub else none

/-- BUILD from the state after acceptance (R111): the length check, the check of R113, then the write of `TXBUF`. -/
def State.buildFrame (cmd : Byte) (sub : Option Byte) (dlen : BitVec 6) (data : List Byte) (s : State) : State :=
  if dlen.toNat > Config.dataMax then s.raise .unsupportedValue
  else if frameWellformed s.cfgDst s.cfgSrc cmd sub (data.take dlen.toNat) then
    State.complete (s.loadTx (s.frameFor cmd sub (data.take dlen.toNat)))
  else s.raise .unsupportedValue

/-- BUILD (R111). -/
def execBuild (cmd : Byte) (hasSub : Bool) (sub : Byte) (dlen : BitVec 6) (data : List Byte) (s : State) :
    Host.Outcome State Fault Refusal :=
  s.onAccept (.build cmd hasSub sub dlen data) (State.buildFrame cmd (buildSub hasSub sub) dlen data)

/-- BUILD.PWRON (R112). -/
def execBuildPwron (baud : BitVec 3) (s : State) : Host.Outcome State Fault Refusal :=
  s.onAccept (.buildPwron baud) (State.refuseUnless (leadinCount baud) fun k s =>
    State.complete (s.loadTx (withLeadin k (s.frameFor 0x18 (some Config.pwrOnSub) []))))

end Sys2Proof.Machine
end

