-- ==== Sys2Proof/Machine/Interpret.lean ====
section
/-! DEFINITION. The interpretations of a completed reply (R150, R151, R159, R161 of `43_civ_commands.md`), each with the
result registers it leaves. -/

namespace Sys2Proof.Machine

/-- `INTERPRET_SET` (R151): a set or select operation expects a status reply. -/
def interpretSet (o : TxnOutcome) : Verdict :=
  match o with
  | .data => .malformed
  | .noOutcome => .fine
  | .ok => .fine
  | .rejected => .fine
  | .anomalous => .fine

/-- What a read operation answers to a reply that is no DATA (R159, R161): a bare OK carries no payload. -/
def interpretNoData (o : TxnOutcome) : Verdict :=
  match o with
  | .ok => .malformed
  | .noOutcome => .fine
  | .rejected => .fine
  | .anomalous => .fine
  | .data => .fine

/-- The payload of a frequency reply, indices 5 to 9 (R159). -/
def freqPayload (reply : List Byte) : Bytes5 :=
  { b0 := reply.getD Config.freqFirst 0, b1 := reply.getD (Config.freqFirst + 1) 0
    b2 := reply.getD (Config.freqFirst + 2) 0, b3 := reply.getD (Config.freqFirst + 3) 0
    b4 := reply.getD Config.freqLast 0 }

/-- The length of a frequency reply: header, payload and terminator (R159). -/
def freqReplyLen : Nat := Config.freqLast + 2

/-- `INTERPRET_FREQ` (R159). -/
def interpretFreq (o : TxnOutcome) (reply : List Byte) (res : Results) : Verdict × Results :=
  if o = .data then
    if reply.length = freqReplyLen then
      (.fine, { res with value := BitVec.ofNat 34 (freqDec (freqPayload reply)) })
    else (.malformed, res)
  else (interpretNoData o, res)

/-- The filter of a mode reply of 8 bytes, at index 6 (R161). -/
def withFilter (reply : List Byte) (res : Results) : Results :=
  if reply.length = 8 then
    { res with filter := BitVec.ofNat 8 (decBcd (reply.getD 6 0).toNat), hasFilter := true }
  else res

/-- `INTERPRET_MODE` (R161): the mode code is at index 5. -/
def interpretMode (o : TxnOutcome) (reply : List Byte) (res : Results) : Verdict × Results :=
  if o = .data then
    if reply.length = 7 ∨ reply.length = 8 then
      match modeName (reply.getD 5 0) with
      | some sel => (.fine, withFilter reply { res with modeSel := sel })
      | none => (.malformed, res)
    else (.malformed, res)
  else (interpretNoData o, res)

/-- The interpretation of the operation in progress, by its latched `OPID` (R126): none for EXEC, its own for FREQ.RD and
MODE.RD, `INTERPRET_SET` for the other eleven command operations. -/
def interpretFor (opid : Byte) (o : TxnOutcome) (reply : List Byte) (res : Results) : Verdict × Results :=
  if opid = Opid.execute then (.fine, res)
  else if opid = Opid.freqRd then interpretFreq o reply res
  else if opid = Opid.modeRd then interpretMode o reply res
  else (interpretSet o, res)

end Sys2Proof.Machine
end

