-- ==== Sys2Proof/Machine/Engine.lean ====
section
/-! DEFINITION. The Transaction Engine (`42_transaction_engine.md`): the start of a transaction, the steps of the phases
TX, RX_ECHO and RX_REPLY (R122, R124 to R126, R130), and EXEC (R121). -/

namespace Sys2Proof.Machine

/-- `RXLEN <- 0 ; ECHOLEN <- 0 ; TXI <- 0 ; PHASE <- TX` (R121, R150). -/
def State.startTxn (s : State) : State :=
  { s with mem := s.mem.clearRx, echolen := 0, txi := 0, phase := .tx }

/-- A write was answered Ok (R122): the next byte, or the echo read after the last one. -/
def State.txAdvance (s : State) : State :=
  { s with
    txi := s.txi + 1
    phase := if s.txi.toNat + 1 = s.mem.txbuf.length then .rxEcho else .tx }

/-- Phase TX, one step (R122). While the environment gives no answer the block waits (R132; log entry 3). -/
def txStep (s : State) : Host.Outcome State Fault Refusal :=
  match s.mem.txAt s.txi.toNat with
  | none => .fault .noTransition
  | some b =>
    match s.txWrite b with
    | (none, s') => .next s'
    | (some .ok, s') => .next s'.txAdvance
    | (some .fail, s') => .next (s'.raise .transportUnavailable)

/-- Echo completion (R125). -/
def State.echoCompletion (s : State) : State :=
  { s with
    status := { s.status with em := !echoEqual s.mem.rxbuf s.mem.txbuf }
    echolen := s.rxlen
    mem := s.mem.clearRx
    phase := .rxReply }

/-- Reply completion (R126): classification, the operation's interpretation, the priority of errors, completion. -/
def State.replyCompletion (s : State) : State :=
  let o := classify s.mem.rxbuf
  let vr := interpretFor s.latch.opid o s.mem.rxbuf s.results
  let e := finalErr o s.status.em vr.1
  State.complete
    { s with results := vr.2, status := { s.status with outcome := o, err := e.1, errph := e.2 } }

/-- A byte was read in RX_ECHO or RX_REPLY (R124): the terminator test comes before the overflow test. -/
def State.rxByte (b : Byte) (s : State) : State :=
  let s' := { s with mem := s.mem.pushRx b }
  if b = Config.term then
    if s.phase = .rxEcho then s'.echoCompletion else s'.replyCompletion
  else if s'.mem.rxbuf.length = Config.rxMax then s'.raise .malformedResponse
  else s'

/-- The answer to a read was `a` (R124). -/
def State.afterRead (a : RxAnswer) (s : State) : State :=
  match a with
  | .byte b => s.rxByte b
  | .timeout => s.raise .timeout
  | .fail => s.raise .transportUnavailable

/-- Phases RX_ECHO and RX_REPLY, one step (R124). While the environment gives no answer the block waits (R132; log
entry 3). -/
def rxStep (s : State) : Host.Outcome State Fault Refusal :=
  if s.mem.rxbuf.length < Config.rxMax then
    match s.rxRead with
    | (none, s') => .next s'
    | (some a, s') => .next (s'.afterRead a)
  else .fault .noTransition

/-- The start of the transaction of `TXBUF[0 .. TXLEN-1]`, or UnsupportedValue when nothing was built (R121). -/
def State.executeBuilt (s : State) : State :=
  if s.mem.txbuf = [] then s.raise .unsupportedValue else s.startTxn

/-- EXEC (R121). -/
def execExecute (s : State) : Host.Outcome State Fault Refusal :=
  s.onAccept .execute State.executeBuilt

end Sys2Proof.Machine
end

