-- ==== Sys2Proof/Machine/Commands.lean ====
section
/-! DEFINITION. The thirteen CI-V command operations (R150, R152 to R164 of `43_civ_commands.md`; R74 of
`30_encoding.md`). A meaning is the operation's first step: acceptance, the refusal of illegal operands or the build, and
the entry into TX (R130). The phases' steps and the interpretation follow in `Machine/Engine.lean`, one event a step. -/

namespace Sys2Proof.Machine

/-- Stages 2 and 3 of R150 up to the entry into TX: `k` lead-in bytes and the frame, then the transaction. -/
def State.command (k : Nat) (cmd : Byte) (sub : Option Byte) (data : List Byte) (s : State) : State :=
  State.startTxn (s.loadTx (withLeadin k (s.frameFor cmd sub data)))

/-- PWR.OFF (R152). -/
def execPwrOff (s : State) : Host.Outcome State Fault Refusal :=
  s.onAccept .pwrOff (State.command 0 0x18 (some Config.pwrOffSub) [])

/-- PWR.ON (R153). -/
def execPwrOn (baud : BitVec 3) (s : State) : Host.Outcome State Fault Refusal :=
  s.onAccept (.pwrOn baud) (State.refuseUnless (leadinCount baud) fun k =>
    State.command k 0x18 (some Config.pwrOnSub) [])

/-- VFO.A (R154). -/
def execVfoA (s : State) : Host.Outcome State Fault Refusal :=
  s.onAccept .vfoA (State.command 0 0x07 (some Config.vfoASub) [])

/-- VFO.B (R155). -/
def execVfoB (s : State) : Host.Outcome State Fault Refusal :=
  s.onAccept .vfoB (State.command 0 0x07 (some Config.vfoBSub) [])

/-- MEM.MODE (R156). -/
def execMemMode (s : State) : Host.Outcome State Fault Refusal :=
  s.onAccept .memMode (State.command 0 0x08 none [])

/-- MEM.BANK (R157). -/
def execMemBank (bank : Byte) (s : State) : Host.Outcome State Fault Refusal :=
  s.onAccept (.memBank bank) (State.refuseUnless (bankByte bank) fun c => State.command 0 0x08 (some 0xA0) [c])

/-- MEM.CHAN (R158). -/
def execMemChan (special : Bool) (val : Byte) (s : State) : Host.Outcome State Fault Refusal :=
  s.onAccept (.memChan special val) (State.refuseUnless (chanBytes special val) fun d => State.command 0 0x08 none d)

/-- FREQ.RD (R159). -/
def execFreqRd (s : State) : Host.Outcome State Fault Refusal :=
  s.onAccept .freqRd (State.command 0 0x03 none [])

/-- FREQ.SET (R160). -/
def execFreqSet (n : BitVec 30) (s : State) : Host.Outcome State Fault Refusal :=
  s.onAccept (.freqSet n) (State.refuseUnless (freqBytes n) fun d => State.command 0 0x00 none d)

/-- MODE.RD (R161). -/
def execModeRd (s : State) : Host.Outcome State Fault Refusal :=
  s.onAccept .modeRd (State.command 0 0x04 none [])

/-- MODE.SET (R162). -/
def execModeSet (sel : BitVec 4) (s : State) : Host.Outcome State Fault Refusal :=
  s.onAccept (.modeSet sel) (State.refuseUnless (modeCode sel) fun c => State.command 0 0x06 none [c])

/-- PTT.RX (R163). -/
def execPttRx (s : State) : Host.Outcome State Fault Refusal :=
  s.onAccept .pttRx (State.command 0 0x1C (some 0x00) [0x00])

/-- PTT.TX (R164). -/
def execPttTx (s : State) : Host.Outcome State Fault Refusal :=
  s.onAccept .pttTx (State.command 0 0x1C (some 0x00) [0x01])

end Sys2Proof.Machine
end

