-- ==== Sys2Proof/Machine/Dispatch.lean ====
section
/-! DEFINITION. One arm per operation of the table (R67 of `30_encoding.md`): the acceptance step of each (R130). -/

namespace Sys2Proof.Machine

def exec (i : Instr) (s : State) : Host.Outcome State Fault Refusal :=
  match i with
  | .bcdDec x => Sys2Proof.Machine.execBcdDec x s
  | .bcdEnc v => Sys2Proof.Machine.execBcdEnc v s
  | .freqEnc n => Sys2Proof.Machine.execFreqEnc n s
  | .freqDec b => Sys2Proof.Machine.execFreqDec b s
  | .modeEnc sel => Sys2Proof.Machine.execModeEnc sel s
  | .modeDec b0 => Sys2Proof.Machine.execModeDec b0 s
  | .chanEnc special val => Sys2Proof.Machine.execChanEnc special val s
  | .bankEnc bank => Sys2Proof.Machine.execBankEnc bank s
  | .build cmd hasSub sub dlen data => Sys2Proof.Machine.execBuild cmd hasSub sub dlen data s
  | .buildPwron baud => Sys2Proof.Machine.execBuildPwron baud s
  | .execute => Sys2Proof.Machine.execExecute s
  | .pwrOff => Sys2Proof.Machine.execPwrOff s
  | .pwrOn baud => Sys2Proof.Machine.execPwrOn baud s
  | .vfoA => Sys2Proof.Machine.execVfoA s
  | .vfoB => Sys2Proof.Machine.execVfoB s
  | .memMode => Sys2Proof.Machine.execMemMode s
  | .memBank bank => Sys2Proof.Machine.execMemBank bank s
  | .memChan special val => Sys2Proof.Machine.execMemChan special val s
  | .freqRd => Sys2Proof.Machine.execFreqRd s
  | .freqSet n => Sys2Proof.Machine.execFreqSet n s
  | .modeRd => Sys2Proof.Machine.execModeRd s
  | .modeSet sel => Sys2Proof.Machine.execModeSet sel s
  | .pttRx => Sys2Proof.Machine.execPttRx s
  | .pttTx => Sys2Proof.Machine.execPttTx s

end Sys2Proof.Machine
end

