-- ==== Sys2Proof/Machine/Step.lean ====
section
/-! DEFINITION. One step of the block (R7 of `00_scope.md`, R130 of `42_transaction_engine.md`): in IDLE the acceptance of
the presented request, in the other phases one call of a stream primitive with its answer. -/

namespace Sys2Proof.Machine

/-- One step. In IDLE with nothing presented the block waits (R202). -/
def step (s : State) : Host.Outcome State Fault Refusal :=
  match s.phase with
  | .idle =>
    if s.status.busy then .fault .noTransition
    else
      match s.fetch with
      | none => .next s
      | some (r, s') =>
        match decode r with
        | .ok i => exec i s'
        | .error _ => .next s'.refuseReserved
  | .tx => txStep s
  | .rxEcho => rxStep s
  | .rxReply => rxStep s

/-- `s` with the request whose bits are the `nbits` lowest of `w`, every higher bit 0, presented so that the next step
accepts it: it stands at the head of the request port, and the block is idle (log entry 4). -/
def State.withFetchWord (s : State) (nbits w : Nat) : State :=
  s.present (Request.ofWord (w % 2 ^ nbits))

end Sys2Proof.Machine
end

