-- ==== Sys2Proof/Machine/Caller.lean ====
section
/-! DEFINITION. What the caller can read (R15, R16, R28 of `10_state.md`; R207 of `70_reset_and_hazards.md`). A read the
spec does not define, while an operation is in progress or at an index past a buffer's length, gives no value (V3, V1 of
`93_implementation_defined.md`; log entry 17). -/

namespace Sys2Proof.Machine

/-- The result record (R16). -/
structure ResultRecord where
  err       : ErrCode
  errph     : Phase
  outcome   : TxnOutcome
  em        : Bool
  value     : BitVec 34
  bytes     : List Byte
  modeSel   : BitVec 4
  filter    : BitVec 8
  hasFilter : Bool
  rx        : List Byte
  echolen   : BitVec 7
  txi       : BitVec 7
  deriving DecidableEq, Repr

/-- The five byte registers in index order. -/
def bytes5List (b : Bytes5) : List Byte := [b.b0, b.b1, b.b2, b.b3, b.b4]

/-- The result record, read when `STATUS.DONE = 1` (R16, R207). -/
def State.resultRecord (s : State) : Option ResultRecord :=
  if s.status.done then
    some
      { err := s.status.err, errph := s.status.errph, outcome := s.status.outcome, em := s.status.em
        value := s.results.value, bytes := (bytes5List s.results.bytes).take s.results.blen.toNat
        modeSel := s.results.modeSel, filter := s.results.filter, hasFilter := s.results.hasFilter
        rx := s.mem.rxbuf, echolen := s.echolen, txi := s.txi }
  else none

/-- The registers the caller may read (R28). -/
inductive CallerReg where
  | resValue
  | resByte (i : Nat)
  | resBlen
  | resModeSel
  | resFilter
  | resHasFilter
  | txbuf (i : Nat)
  | txlen
  | txi
  | rxbuf (i : Nat)
  | rxlen
  | echolen
  | phase
  | status
  | cfgDst
  | cfgSrc
  deriving DecidableEq, Repr

/-- A register's value; none at an index the register file or buffer does not have (R17, R18, R28). -/
def State.regValue (s : State) : CallerReg → Option Nat
  | .resValue => some s.results.value.toNat
  | .resByte i => ((bytes5List s.results.bytes)[i]?).map BitVec.toNat
  | .resBlen => some s.results.blen.toNat
  | .resModeSel => some s.results.modeSel.toNat
  | .resFilter => some s.results.filter.toNat
  | .resHasFilter => some (flagCode s.results.hasFilter)
  | .txbuf i => (s.mem.txAt i).map BitVec.toNat
  | .txlen => some s.txlen.toNat
  | .txi => some s.txi.toNat
  | .rxbuf i => (s.mem.rxAt i).map BitVec.toNat
  | .rxlen => some s.rxlen.toNat
  | .echolen => some s.echolen.toNat
  | .phase => some (phaseCode s.phase)
  | .status => some (statusWord s.status).toNat
  | .cfgDst => some s.cfgDst.toNat
  | .cfgSrc => some s.cfgSrc.toNat

/-- The caller's read of a register: `STATUS` at any time, the others when `STATUS.BUSY = 0` (R28). -/
def State.callerRead (s : State) (r : CallerReg) : Option Nat :=
  if s.status.busy ∧ r ≠ .status then none else s.regValue r

end Sys2Proof.Machine
end

