-- ==== Sys2Proof/Machine/Txn.lean ====
section
/-! DEFINITION. The transaction as one function of the environment's answers (R123, R131 of `42_transaction_engine.md`).
The machine's step does not use it: it is the big-step reading the small steps must agree with. -/

namespace Sys2Proof.Machine

/-- How a frame read ends (R123). -/
inductive FrameVerdict where
  /-- A complete response, terminator included. -/
  | frame (buf : List Byte)
  /-- The error that ended the read, and the bytes read before it. -/
  | err (e : ErrCode) (buf : List Byte)
  deriving DecidableEq, Repr

/-- `READ_FRAME` (R123) with `buf` accumulated so far: the verdict and the answers left; none when the answers run out
first (the rule assumes that the environment always answers). -/
def readFrame : List Byte → List RxAnswer → Option (FrameVerdict × List RxAnswer)
  | _, [] => none
  | buf, .byte b :: rest =>
    if b = Config.term then some (.frame (buf ++ [b]), rest)
    else if (buf ++ [b]).length = Config.rxMax then some (.err .malformedResponse (buf ++ [b]), rest)
    else readFrame (buf ++ [b]) rest
  | buf, .timeout :: rest => some (.err .timeout buf, rest)
  | buf, .fail :: rest => some (.err .transportUnavailable buf, rest)

/-- How the writes of a transaction end (R131): `sent` bytes were taken; `failed` says the next one failed. -/
structure WriteVerdict where
  sent   : Nat
  failed : Bool
  deriving DecidableEq, Repr

/-- The writes of `n` bytes against the answers, `i` taken so far; none when the answers run out first. -/
def writeAll (i : Nat) : Nat → List TxAnswer → Option WriteVerdict
  | 0, _ => some { sent := i, failed := false }
  | _ + 1, [] => none
  | n + 1, .ok :: rest => writeAll (i + 1) n rest
  | _ + 1, .fail :: _ => some { sent := i, failed := true }

/-- The result of `TXN` (R131). `err` is the terminal error with its phase, or none where both frames were read and the
error is for the caller of `TXN` to decide. -/
structure TxnResult where
  err     : Option (ErrCode × Phase)
  txi     : Nat
  em      : Bool
  outcome : TxnOutcome
  echolen : Nat
  rx      : List Byte
  rest    : List RxAnswer
  deriving DecidableEq, Repr

/-- The reply stage of `TXN` after a completed echo (R131). -/
def txnReply (txi : Nat) (em : Bool) (echolen : Nat) (answers : List RxAnswer) : Option TxnResult :=
  match readFrame [] answers with
  | none => none
  | some (.err e buf, rest) =>
    some { err := some (e, .rxReply), txi := txi, em := em, outcome := .noOutcome, echolen := echolen, rx := buf
           rest := rest }
  | some (.frame reply, rest) =>
    some { err := none, txi := txi, em := em, outcome := classify reply, echolen := echolen, rx := reply, rest := rest }

/-- The echo stage of `TXN` after all bytes were taken (R131). -/
def txnEcho (tx : List Byte) (answers : List RxAnswer) : Option TxnResult :=
  match readFrame [] answers with
  | none => none
  | some (.err e buf, rest) =>
    some { err := some (e, .rxEcho), txi := tx.length, em := false, outcome := .noOutcome, echolen := 0, rx := buf
           rest := rest }
  | some (.frame echo, rest) => txnReply tx.length (!echoEqual echo tx) echo.length rest

/-- `TXN(tx, W, A)` (R131); none when a list of answers runs out before the transaction ends. -/
def txn (tx : List Byte) (w : List TxAnswer) (answers : List RxAnswer) : Option TxnResult :=
  match writeAll 0 tx.length w with
  | none => none
  | some v =>
    if v.failed then
      some { err := some (.transportUnavailable, .tx), txi := v.sent, em := false, outcome := .noOutcome, echolen := 0
             rx := [], rest := answers }
    else txnEcho tx answers

end Sys2Proof.Machine
end

