-- ==== Sys2Proof/Machine/Wire.lean ====
section
/-! DEFINITION. From a sent byte sequence back to the operation that made it: the procedure of R83 and the `wire` rows of
the operation table with their patterns and constraints (R61), both of `30_encoding.md` (log entry 20). The block never
performs it (D34); it is for the reader of a byte log. -/

namespace Sys2Proof.Machine

/-- What a sent sequence shows of the operation that made it (R83). -/
inductive WireOp where
  | pwrOff
  | pwrOn
  | vfoA
  | vfoB
  | memMode
  | memBank (bank : Byte)
  /-- An integer channel, by its data byte. -/
  | memChan (b : Byte)
  /-- The special channel "1A". -/
  | memChanSpecial
  | freqRd
  /-- A frequency, by its payload. -/
  | freqSet (payload : List Byte)
  | modeRd
  | modeSet (sel : BitVec 4)
  | pttRx
  | pttTx
  /-- Any other well-formed frame: it can only have come from BUILD. -/
  | built
  deriving DecidableEq, Repr

/-- Both nibbles are decimal digits. -/
def isBcdByte (b : Byte) : Bool := decide (b.toNat / 16 ≤ 9) && decide (b.toNat % 16 ≤ 9)

/-- Leading 0xFE bytes beyond the first two are removed (R83). -/
def stripLeadin : List Byte → List Byte
  | [] => []
  | a :: rest =>
    if a = Config.leadinByte ∧ rest.take 2 = [Config.leadinByte, Config.leadinByte] then stripLeadin rest
    else a :: rest

/-- Length 6: the command byte alone decides (R83). -/
def wireOp6 (cmd : Byte) : WireOp :=
  if cmd = 0x03 then .freqRd
  else if cmd = 0x04 then .modeRd
  else if cmd = 0x08 then .memMode
  else .built

/-- Length 7: command byte and byte 5 (R83). -/
def wireOp7 (cmd x : Byte) : WireOp :=
  if cmd = 0x18 then if x = Config.pwrOffSub then .pwrOff else if x = Config.pwrOnSub then .pwrOn else .built
  else if cmd = 0x07 then if x = Config.vfoASub then .vfoA else if x = Config.vfoBSub then .vfoB else .built
  else if cmd = 0x08 then if isBcdByte x then .memChan x else .built
  else if cmd = 0x06 then
    match modeName x with
    | some sel => .modeSet sel
    | none => .built
  else .built

/-- Length 8: command byte and bytes 5 and 6 (R83). -/
def wireOp8 (cmd x y : Byte) : WireOp :=
  if cmd = 0x08 then
    if x = 0xA0 then if (bankByte y).isSome then .memBank y else .built
    else if [x, y] = [0x01, 0x00] then .memChanSpecial
    else .built
  else if cmd = 0x1C then
    if [x, y] = [0x00, 0x00] then .pttRx else if [x, y] = [0x00, 0x01] then .pttTx else .built
  else .built

/-- Length 11: the command byte alone decides (R83). -/
def wireOp11 (cmd : Byte) (payload : List Byte) : WireOp :=
  if cmd = 0x00 then .freqSet payload else .built

/-- The operation by the command byte and the bytes between it and the terminator (R83). -/
def wireOpOf (cmd : Byte) (body : List Byte) : WireOp :=
  match body with
  | [] => wireOp6 cmd
  | [x] => wireOp7 cmd x
  | [x, y] => wireOp8 cmd x y
  | _ => if body.length = 5 then wireOp11 cmd body else .built

/-- The operation a sent sequence came from (R83); none when the sequence is no well-formed frame with the block's
addresses. -/
def identify (sent : List Byte) : Option WireOp :=
  match stripLeadin sent with
  | p0 :: p1 :: dst :: src :: cmd :: rest =>
    if [p0, p1] = Config.preamble ∧ dst = Config.dstAddr ∧ src = Config.srcAddr ∧ rest.getLast? = some Config.term ∧
        (cmd :: rest.dropLast).all (fun b => b != Config.term) then
      some (wireOpOf cmd rest.dropLast)
    else none
  | _ => none

/-! ## The table's wire rows (R61) -/

/-- A frame as one unsigned number, byte 0 most significant (R61). -/
def frameNumber (f : List Byte) : Nat := f.foldl (fun n b => n * 2 ^ 8 + b.toNat) 0

/-- What a row demands of the bytes its mask leaves open. -/
inductive WireConstraint where
  | free
  /-- Byte 6 is a legal bank. -/
  | bank
  /-- Both nibbles of byte 5 are at most 9. -/
  | channel
  /-- Every payload nibble is at most 9 and byte 9 at most 0x09. -/
  | frequency
  /-- Byte 5 is a mode code. -/
  | mode
  deriving DecidableEq, Repr

/-- The constraint holds of a frame of the row's length. -/
def WireConstraint.holds (c : WireConstraint) (f : List Byte) : Bool :=
  match c with
  | .free => true
  | .bank => (bankByte (f.getD 6 0)).isSome
  | .channel => isBcdByte (f.getD 5 0)
  | .frequency => ((f.drop 5).take 5).all isBcdByte && decide ((f.getD 9 0).toNat ≤ 9)
  | .mode => (modeName (f.getD 5 0)).isSome

/-- One entry of a row's `wire` list. -/
structure WireRow where
  mnemonic  : String
  length    : Nat
  wireMatch : Nat
  wireMask  : Nat
  demand    : WireConstraint
  deriving DecidableEq, Repr

/-- A frame of the stated length belongs to the row when `f & wire_mask = wire_match` and the constraint holds (R61). -/
def WireRow.belongs (row : WireRow) (f : List Byte) : Bool :=
  f.length == row.length && frameNumber f &&& row.wireMask == row.wireMatch && row.demand.holds f

/-- A row that fixes every bit of its frame. -/
def WireRow.fixed (mnemonic : String) (length wireMatch : Nat) : WireRow :=
  { mnemonic := mnemonic, length := length, wireMatch := wireMatch, wireMask := 2 ^ (8 * length) - 1, demand := .free }

/-- The `wire` entries of the thirteen command operations. BUILD and EXEC have no fixed pattern, and BUILD.PWRON shares
the frame of PWR.ON. -/
def wireRows : List WireRow :=
  [.fixed "PWR.OFF" 7 0xFEFE88E01800FD, .fixed "PWR.ON" 7 0xFEFE88E01801FD, .fixed "VFO.A" 7 0xFEFE88E00700FD,
   .fixed "VFO.B" 7 0xFEFE88E00701FD, .fixed "MEM.MODE" 6 0xFEFE88E008FD,
   { mnemonic := "MEM.BANK", length := 8, wireMatch := 0xFEFE88E008A000FD, wireMask := 0xFFFFFFFFFFFF00FF, demand := .bank },
   { mnemonic := "MEM.CHAN", length := 7, wireMatch := 0xFEFE88E00800FD, wireMask := 0xFFFFFFFFFF00FF, demand := .channel },
   .fixed "MEM.CHAN" 8 0xFEFE88E0080100FD, .fixed "FREQ.RD" 6 0xFEFE88E003FD] ++
  [{ mnemonic := "FREQ.SET", length := 11, wireMatch := 0xFEFE88E0000000000000FD, wireMask := 0xFFFFFFFFFF0000000000FF
     demand := .frequency },
   .fixed "MODE.RD" 6 0xFEFE88E004FD,
   { mnemonic := "MODE.SET", length := 7, wireMatch := 0xFEFE88E00600FD, wireMask := 0xFFFFFFFFFF00FF, demand := .mode },
   .fixed "PTT.RX" 8 0xFEFE88E01C0000FD, .fixed "PTT.TX" 8 0xFEFE88E01C0001FD]

/-- The mnemonic of the operation a sequence shows. -/
def WireOp.mnemonic : WireOp → String
  | .pwrOff => "PWR.OFF"
  | .pwrOn => "PWR.ON"
  | .vfoA => "VFO.A"
  | .vfoB => "VFO.B"
  | .memMode => "MEM.MODE"
  | .memBank _ => "MEM.BANK"
  | .memChan _ => "MEM.CHAN"
  | .memChanSpecial => "MEM.CHAN"
  | .freqRd => "FREQ.RD"
  | .freqSet _ => "FREQ.SET"
  | .modeRd => "MODE.RD"
  | .modeSet _ => "MODE.SET"
  | .pttRx => "PTT.RX"
  | .pttTx => "PTT.TX"
  | .built => "BUILD"

end Sys2Proof.Machine
end

