-- ==== Sys2Proof/Safety.lean ====
section
/-! DEFINITION. The terms the statements use: the states a request can be accepted in, what an operation leaves
unchanged, the shape of a transaction's trace, and the invariant that every step keeps. -/

namespace Sys2Proof.Machine

/-! ## Before and after an operation -/

/-- A request can be accepted (R120): idle and not busy. -/
def State.Ready (s : State) : Prop := s.phase = .idle ∧ s.status.busy = false

/-- Every byte of both buffers, and both lengths, read the same in `t` as in `s`. -/
def SameBuffers (s t : State) : Prop :=
  (∀ i, t.mem.txAt i = s.mem.txAt i) ∧ (∀ i, t.mem.rxAt i = s.mem.rxAt i) ∧ t.txlen = s.txlen ∧ t.rxlen = s.rxlen

/-- What no operation without I/O touches besides the buffers: `TXI`, `ECHOLEN`, the request port, the environment; and
the trace of such an operation is empty (R33, R133). -/
def NoTransport (s t : State) : Prop :=
  t.txi = s.txi ∧ t.echolen = s.echolen ∧ t.port = s.port ∧ t.env = s.env ∧ t.trace = []

/-- `STATUS` of an operation that completed without a transaction, with the error `e` charged to IDLE (R21, R24). -/
def Status.finished (e : ErrCode) : Status :=
  { busy := false, done := true, em := false, outcome := .noOutcome, err := e, errph := .idle }

/-- `t` is the state after an operation without I/O that completed from `s` with error `e`, operand registers `latch`,
and result registers `res` (R25, R33, R182). What `latch` says of lines the operation does not use is the model's choice
(log entry 7). -/
structure CompletedQuietly (s t : State) (e : ErrCode) (latch : Request) (res : Results) : Prop where
  phase   : t.phase = .idle
  status  : t.status = Status.finished e
  latch   : t.latch = latch
  results : t.results = res
  quiet   : NoTransport s t

/-- A codec operation: completed without error, and no byte of a buffer changed (R33). -/
def CodecDone (s t : State) (latch : Request) (res : Results) : Prop :=
  CompletedQuietly s t .noError latch res ∧ SameBuffers s t

/-- A refusal (R182): UnsupportedValue, cleared results, and no byte of a buffer changed. -/
def Refused (s t : State) (latch : Request) : Prop :=
  CompletedQuietly s t .unsupportedValue latch Results.zero ∧ SameBuffers s t

/-- `t` is the state in which the transaction of the sequence `f` begins, the operation having been accepted in `s`
(R25, R121, R130, R150). What `latch` says of lines the operation does not use is the model's choice (log entry 7). -/
structure TxnBegun (s t : State) (latch : Request) (f : List Byte) : Prop where
  phase   : t.phase = .tx
  status  : t.status = { busy := true, done := false, em := false, outcome := .noOutcome, err := .noError, errph := .idle }
  latch   : t.latch = latch
  results : t.results = Results.zero
  txbytes : ∀ i, t.mem.txAt i = f[i]?
  txlen   : t.txlen.toNat = f.length
  rxbytes : ∀ i, t.mem.rxAt i = none
  rxlen   : t.rxlen = 0
  txi     : t.txi = 0
  echolen : t.echolen = 0
  port    : t.port = s.port
  env     : t.env = s.env
  trace   : t.trace = []

/-! ## Traces (R133) -/

/-- The bytes were offered and all taken. -/
def writesOk (bs : List Byte) : List Event := bs.map fun b => .wrote b .ok

/-- The bytes were read. -/
def readsOf (bs : List Byte) : List Event := bs.map fun b => .got (.byte b)

/-- The trace of an operation on the sequence `sent` (R133, R219): writes that were taken; or those and the one that
failed; or every write taken and then reads, of which only the last may be no byte, with at most two terminators. -/
def LegalTrace (sent : List Byte) (tr : List Event) : Prop :=
  (∃ k, tr = writesOk (sent.take k)) ∨
  (∃ k b, sent[k]? = some b ∧ tr = writesOk (sent.take k) ++ [.wrote b .fail]) ∨
  (∃ reads : List RxAnswer, tr = writesOk sent ++ reads.map Event.got ∧ reads.count (.byte Config.term) ≤ 2 ∧
    ∀ a ∈ reads.dropLast, ∃ b, a = .byte b)

/-- How many frames a trace completed: the terminators read. -/
def framesRead (tr : List Event) : Nat := tr.count (.got (.byte Config.term))

/-! ## The invariant -/

/-- A byte sequence a frame read can return (R123): it ends in the terminator, holds no other, and fits the buffer. -/
def IsResponse (r : List Byte) : Prop :=
  r.getLast? = some Config.term ∧ Config.term ∉ r.dropLast ∧ r.length ≤ Config.rxMax

/-- What `TXBUF` may hold (R113): nothing, or a sequence with its one terminator at the end, within the capacity. -/
def TxbufShape (f : List Byte) : Prop :=
  f = [] ∨ (f.getLast? = some Config.term ∧ Config.term ∉ f.dropLast ∧ f.length ≤ Config.txMax)

/-- A response in progress: no terminator yet, and room for another byte (R124). -/
def PartialResponse (r : List Byte) : Prop := Config.term ∉ r ∧ r.length < Config.rxMax

/-- The operation numbers of the operations that perform a transaction: EXEC and the thirteen commands (R130). -/
def isTransactional (opid : Byte) : Bool :=
  opid == Opid.execute || (decide (Opid.pwrOff.toNat ≤ opid.toNat) && decide (opid.toNat ≤ Opid.pttTx.toNat))

/-- What holds of the sequencer inside a transaction, phase by phase (R20, R122, R124, R125, R133). -/
def PhaseShape (s : State) : Prop :=
  match s.phase with
  | .idle => True
  | .tx =>
    s.txi.toNat < s.mem.txbuf.length ∧ s.mem.rxbuf = [] ∧ s.echolen = 0 ∧ s.status.em = false ∧
      s.trace = writesOk (s.mem.txbuf.take s.txi.toNat)
  | .rxEcho =>
    s.txi = s.txlen ∧ s.echolen = 0 ∧ s.status.em = false ∧ PartialResponse s.mem.rxbuf ∧
      s.trace = writesOk s.mem.txbuf ++ readsOf s.mem.rxbuf
  | .rxReply =>
    s.txi = s.txlen ∧ PartialResponse s.mem.rxbuf ∧
      ∃ echo, IsResponse echo ∧ s.echolen.toNat = echo.length ∧ (s.status.em = true ↔ echo ≠ s.mem.txbuf) ∧
        s.trace = writesOk s.mem.txbuf ++ readsOf echo ++ readsOf s.mem.rxbuf

/-- The invariant of the block. -/
structure Inv (s : State) : Prop where
  /-- `BUSY` is 1 exactly inside a transaction (R25, R130: other operations complete in their acceptance step). -/
  busy       : s.status.busy = true ↔ s.phase ≠ .idle
  /-- `BUSY` and `DONE` are never both 1 (R21). -/
  notBoth    : ¬ (s.status.busy = true ∧ s.status.done = true)
  /-- Inside a transaction nothing is reported yet (R22 to R25). -/
  unreported : s.phase ≠ .idle → s.status.outcome = .noOutcome ∧ s.status.err = .noError ∧ s.status.errph = .idle ∧
    s.results = Results.zero ∧ isTransactional s.latch.opid = true
  /-- No error is charged to no phase but IDLE (R24, R128). -/
  noErr      : s.status.err = .noError → s.status.errph = .idle
  /-- `TXBUF` holds nothing or a sequence with its only terminator last (R113). -/
  txbuf      : TxbufShape s.mem.txbuf
  /-- `RXBUF` keeps within its capacity and holds no terminator but at the end (R42, R123). -/
  rxbuf      : Config.term ∉ s.mem.rxbuf.dropLast ∧ s.mem.rxbuf.length ≤ Config.rxMax
  /-- The counters keep within the buffers' capacities (R18, R20). -/
  counters   : s.txi.toNat ≤ Config.txMax ∧ s.echolen.toNat ≤ Config.rxMax
  /-- The result registers keep within the ranges of R14. -/
  results    : s.results.blen.toNat ≤ 5 ∧ s.results.modeSel.toNat ≤ 9 ∧ s.results.filter.toNat ≤ 165 ∧
    s.results.value.toNat ≤ 16666666665
  /-- The operand registers and every presented request have the lines of R12. -/
  lines      : s.latch.wellFormed = true ∧ ∀ r ∈ s.port, r.wellFormed = true
  /-- The trace has the shape of R133 and R219. -/
  trace      : LegalTrace s.mem.txbuf s.trace
  /-- An outcome is reported exactly when both frames were completed (R219). -/
  outcome    : s.status.outcome ≠ .noOutcome ↔ framesRead s.trace = 2
  /-- The sequencer, phase by phase. -/
  shape      : PhaseShape s

/-! ## Operands -/

/-- The operands, or for EXEC the state, for which R176 names UnsupportedValue. -/
def IllegalOperands (s : State) : Instr → Prop
  | .bcdDec _ => False
  | .bcdEnc _ => False
  | .freqEnc n => n.toNat > 999999999
  | .freqDec _ => False
  | .modeEnc sel => sel.toNat > 9
  | .modeDec _ => False
  | .chanEnc special val => if special then val ≠ 0 else val.toNat > 99
  | .bankEnc bank => bank.toNat < 1 ∨ bank.toNat > 5
  | .build cmd hasSub sub dlen data =>
    dlen.toNat > 32 ∨ cmd = 0xFD ∨ (hasSub = true ∧ sub = 0xFD) ∨ (0xFD : Byte) ∈ data.take dlen.toNat
  | .buildPwron baud => baud.toNat > 4
  | .execute => s.mem.txbuf = []
  | .pwrOff => False
  | .pwrOn baud => baud.toNat > 4
  | .vfoA => False
  | .vfoB => False
  | .memMode => False
  | .memBank bank => bank.toNat < 1 ∨ bank.toNat > 5
  | .memChan special val => if special then val ≠ 0 else val.toNat > 99
  | .freqRd => False
  | .freqSet n => n.toNat > 999999999
  | .modeRd => False
  | .modeSet sel => sel.toNat > 9
  | .pttRx => False
  | .pttTx => False

/-- The sequence an operation sends, as R74 and R112 write it (R121 for EXEC); none for an operation that sends nothing and
for one that is refused. -/
def sequenceOf (s : State) : Instr → Option (List Byte)
  | .bcdDec _ => none
  | .bcdEnc _ => none
  | .freqEnc _ => none
  | .freqDec _ => none
  | .modeEnc _ => none
  | .modeDec _ => none
  | .chanEnc _ _ => none
  | .bankEnc _ => none
  | .build _ _ _ _ _ => none
  | .buildPwron _ => none
  | .execute => if s.mem.txbuf = [] then none else some s.mem.txbuf
  | .pwrOff => some [0xFE, 0xFE, 0x88, 0xE0, 0x18, 0x00, 0xFD]
  | .pwrOn baud => (leadinCount baud).map fun k => List.replicate k 0xFE ++ [0xFE, 0xFE, 0x88, 0xE0, 0x18, 0x01, 0xFD]
  | .vfoA => some [0xFE, 0xFE, 0x88, 0xE0, 0x07, 0x00, 0xFD]
  | .vfoB => some [0xFE, 0xFE, 0x88, 0xE0, 0x07, 0x01, 0xFD]
  | .memMode => some [0xFE, 0xFE, 0x88, 0xE0, 0x08, 0xFD]
  | .memBank bank =>
    if 1 ≤ bank.toNat ∧ bank.toNat ≤ 5 then some [0xFE, 0xFE, 0x88, 0xE0, 0x08, 0xA0, bank, 0xFD] else none
  | .memChan special val => (chanBytes special val).map fun d => [0xFE, 0xFE, 0x88, 0xE0, 0x08] ++ d ++ [0xFD]
  | .freqRd => some [0xFE, 0xFE, 0x88, 0xE0, 0x03, 0xFD]
  | .freqSet n =>
    if n.toNat ≤ 999999999 then some ([0xFE, 0xFE, 0x88, 0xE0, 0x00] ++ freqEnc n.toNat ++ [0xFD]) else none
  | .modeRd => some [0xFE, 0xFE, 0x88, 0xE0, 0x04, 0xFD]
  | .modeSet sel => (modeCode sel).map fun c => [0xFE, 0xFE, 0x88, 0xE0, 0x06, c, 0xFD]
  | .pttRx => some [0xFE, 0xFE, 0x88, 0xE0, 0x1C, 0x00, 0x00, 0xFD]
  | .pttTx => some [0xFE, 0xFE, 0x88, 0xE0, 0x1C, 0x00, 0x01, 0xFD]

/-! ## Transactions -/

/-- `t` is the state in which the reply `reply` completed the operation in progress in `s`, with the classification `o`,
the error `e` charged to `ph`, and the result registers `res` (R25, R126, R134); `rest` is what the environment will
answer next. -/
structure ReplyDone (s t : State) (reply : List Byte) (rest : List (Option RxAnswer)) (o : TxnOutcome) (e : ErrCode)
    (ph : Phase) (res : Results) : Prop where
  phase   : t.phase = .idle
  status  : t.status = { busy := false, done := true, em := s.status.em, outcome := o, err := e, errph := ph }
  results : t.results = res
  rxbytes : ∀ i, t.mem.rxAt i = reply[i]?
  txbytes : ∀ i, t.mem.txAt i = s.mem.txAt i
  kept    : t.txi = s.txi ∧ t.echolen = s.echolen ∧ t.latch = s.latch ∧ t.port = s.port
  env     : t.env = { s.env with rx := rest }
  trace   : t.trace = s.trace ++ [.got (.byte 0xFD)]

/-- The sequence in `TXBUF` is about to be sent from the start (R121, R150). -/
structure TxnAtStart (s : State) : Prop where
  phase   : s.phase = .tx
  txi     : s.txi = 0
  rxbuf   : s.mem.rxbuf = []
  echolen : s.echolen = 0
  em      : s.status.em = false
  outcome : s.status.outcome = .noOutcome
  built   : s.mem.txbuf ≠ []
  fits    : s.mem.txbuf.length ≤ Config.txMax

/-- The verdict and the result registers of the operation in progress once its reply is in (R126, R150). -/
def interpreted (s : State) (r : TxnResult) : Verdict × Results := interpretFor s.latch.opid r.outcome r.rx s.results

/-- The error and phase the operation in progress ends with (R131, R179). -/
def endError (s : State) (r : TxnResult) : ErrCode × Phase :=
  match r.err with
  | some e => e
  | none => finalErr r.outcome r.em (interpreted s r).1

/-- The result registers the operation in progress ends with: only a completed reply is interpreted (R150). -/
def endResults (s : State) (r : TxnResult) : Results :=
  match r.err with
  | some _ => s.results
  | none => (interpreted s r).2

/-- `t` is the state in which the transaction begun in `s` has completed with the result `r`, the answers `more` standing
behind those `r` leaves (R131, R134). -/
structure TxnEnded (s t : State) (r : TxnResult) (more : List (Option RxAnswer)) : Prop where
  phase   : t.phase = .idle
  busy    : t.status.busy = false
  done    : t.status.done = true
  em      : t.status.em = r.em
  outcome : t.status.outcome = r.outcome
  error   : (t.status.err, t.status.errph) = endError s r
  results : t.results = endResults s r
  txi     : t.txi.toNat = r.txi
  echolen : t.echolen.toNat = r.echolen
  rx      : t.mem.rxbuf = r.rx
  tx      : t.mem.txbuf = s.mem.txbuf
  latch   : t.latch = s.latch
  port    : t.port = s.port
  residue : t.env.rx = r.rest.map some ++ more

end Sys2Proof.Machine
end

