-- ==== Sys2Proof/Certificates/Slice0/Obligations.lean ====
section
/-! DEFINITION. The statements about the model, each from a rule of `spec/` or derived from its sections. The docstring of a
statement names the rule; OBLIGATIONS.json quotes it. -/

open Sys2Proof Sys2Proof.Machine

/-! ## Reset and the request port -/

/-- R200: every register the spec gives a reset value holds it, and no buffer element reads as a value (R201). -/
def Obligations.ResetRegisters : Prop :=
  State.reset.phase = .idle ∧ statusWord State.reset.status = 0x0000 ∧ State.reset.txlen = 0 ∧ State.reset.txi = 0 ∧
  State.reset.rxlen = 0 ∧ State.reset.echolen = 0 ∧
  State.reset.results.value = 0 ∧ (∀ (i : Nat) (b : Byte), (bytes5List State.reset.results.bytes)[i]? = some b → b = 0) ∧
  State.reset.results.blen = 0 ∧ State.reset.results.modeSel = 0 ∧ State.reset.results.filter = 0 ∧
  State.reset.results.hasFilter = false ∧
  State.reset.cfgDst = 0x88 ∧ State.reset.cfgSrc = 0xE0 ∧
  (∀ i, State.reset.mem.txAt i = none) ∧ (∀ i, State.reset.mem.rxAt i = none)

/-- The invariant holds after reset. -/
def Obligations.ResetSatisfiesInvariant : Prop := Inv State.reset

/-- R26: the two address registers read the same in every state, and the caller reads them so. -/
def Obligations.AddressRegistersReadAlways : Prop :=
  ∀ s : State, s.cfgDst = 0x88 ∧ s.cfgSrc = 0xE0 ∧
    (s.status.busy = false → s.callerRead .cfgDst = some 0x88 ∧ s.callerRead .cfgSrc = some 0xE0)

/-- R202, R203: reset in the middle of an operation gives the reset registers, keeps the invariant, takes no answer of the
environment and consumes no request (reset as an act from outside: log entry 14). -/
def Obligations.ResetMidOperation : Prop :=
  ∀ s : State, Inv s → Inv s.assertReset ∧ s.assertReset.env = s.env ∧ s.assertReset.port = s.port ∧
    s.assertReset.phase = .idle ∧ statusWord s.assertReset.status = 0x0000 ∧ s.assertReset.results = Results.zero ∧
    s.assertReset.txlen = 0 ∧ s.assertReset.rxlen = 0 ∧ s.assertReset.txi = 0 ∧ s.assertReset.echolen = 0

/-- R120, R130: in IDLE the block runs the presented request: where its record decodes to `i`, the step is `exec i` on
the state whose operand registers hold the record and whose port has moved on; and the record drives `i`'s operands (the
port as a list is the model's choice, log entry 4). That every line of the record, unused ones included, ends in the
operand registers is the model's choice too (V2), log entry 7. -/
def Obligations.StepRunsPresentedRequest : Prop :=
  ∀ (s : State) (r : Request) (rest : List Request) (i : Instr), s.Ready → s.port = r :: rest → decode r = .ok i →
    step s = exec i { s with port := rest, latch := r } ∧ i.drive r = r ∧
      (r.wellFormed = true → i.wellFormed = true)

/-- R78: a request whose `OPID` is none of the 24 of R67 is accepted and completes at once with UnsupportedValue, with
no I/O and no change of a buffer, a length, `ECHOLEN` or `TXI`. That the operand registers then hold the record's lines,
which no operation uses, is the model's choice (V2), log entry 7. -/
def Obligations.ReservedOpidCompletesUnsupported : Prop :=
  ∀ (s : State) (r : Request) (rest : List Request), s.Ready → s.port = r :: rest →
    r.opid.toNat ∉ [0x01, 0x02, 0x03, 0x04, 0x05, 0x06, 0x07, 0x08, 0x10, 0x11, 0x20, 0x30, 0x31, 0x32, 0x33, 0x34, 0x35,
      0x36, 0x37, 0x38, 0x39, 0x3A, 0x3B, 0x3C] →
    ∃ t, step s = .next t ∧ Refused { s with port := rest } t r

/-- R25, R208: what the acceptance step of every operation does and leaves: the record is latched, the flags of the last
operation are cleared, the trace begins anew, nothing is taken from the environment or the port; and unless the
operation enters TX, `TXI`, `ECHOLEN` and every byte of `RXBUF` stay. What the operand registers of lines it does not
use hold is the model's choice (V2 leaves it open), log entry 7. -/
def Obligations.AcceptanceStepFrame : Prop :=
  ∀ (i : Instr) (s t : State), s.Ready → exec i s = .next t →
    t.latch = i.drive s.latch ∧ t.port = s.port ∧ t.env = s.env ∧ t.trace = [] ∧
    t.status.em = false ∧ t.status.outcome = .noOutcome ∧ t.status.errph = .idle ∧ t.status.busy = !t.status.done ∧
    (t.phase = .tx ∧ t.status.busy = true ∨
      t.phase = .idle ∧ t.status.done = true ∧ t.txi = s.txi ∧ t.echolen = s.echolen ∧ t.rxlen = s.rxlen ∧
        ∀ j, t.mem.rxAt j = s.mem.rxAt j)

/-- R202: in IDLE with nothing presented the block waits and changes nothing (the wait as a step is the model's choice, log entry
3). -/
def Obligations.IdleBlockWaits : Prop :=
  ∀ s : State, s.Ready → s.port = [] → step s = .next s

/-- R120: where a request cannot be accepted it is held: `exec` changes nothing, and no step of an operation in progress
takes a request from the port or writes an operand register (`exec` on such a state is the model's choice, log entry 13). -/
def Obligations.BusyBlockHoldsRequests : Prop :=
  (∀ (i : Instr) (s : State), ¬ s.Ready → exec i s = .next s) ∧
  (∀ s t : State, s.phase ≠ .idle → step s = .next t → t.port = s.port ∧ t.latch = s.latch)

/-- No instruction faults or is refused by the model, in any state. Where no request can be accepted, the next state is
the same state: the model's choice, log entry 13. -/
def Obligations.EveryRequestAnswersNext : Prop :=
  ∀ (i : Instr) (s : State), ∃ t, exec i s = .next t

/-! ## Request encoding -/

/-- R67: request words written out from the operation table (`OPID` lowest, operands above: log entry 5)
decode to their operations. -/
def Obligations.WrittenOutRequestsDecode : Prop :=
  decodeTableWord 28 0x0123401 = some (.bcdDec 0x01234) ∧ decodeTableWord 8 0x20 = some .execute ∧
  decodeTableWord 8 0x37 = some .freqRd ∧ decodeTableWord 8 0x30 = some .pwrOff ∧
  decodeTableWord 8 0x3C = some .pttTx ∧ decodeTableWord 8 0x11 = some (.buildPwron 0) ∧
  decodeTableWord 8 0x09 = none ∧ decodeTableWord 8 0xFF = none

/-- Every request record is read back from the number its bits make, and the number has no more bits than the record
(the order of the lines: log entry 5). -/
def Obligations.RequestRecordsRoundTrip : Prop :=
  ∀ r : Request, r.wellFormed = true → Request.ofWord r.toWord = r ∧ r.toWord < 2 ^ requestBits

/-- Every well-formed operation is decoded from the word it is encoded as, whatever its operands (the order of the
lines: log entry 5). -/
def Obligations.EveryRequestDecodesFromItsWord : Prop :=
  ∀ i : Instr, i.wellFormed = true → decodeTableWord requestBits (encodeWord i) = some i

/-- R12: the lines an operation does not use are ignored: it is decoded whatever they carry. -/
def Obligations.UnusedLinesAreIgnored : Prop :=
  ∀ (i : Instr) (r : Request), decode (i.drive r) = .ok i

/-! ## The BCD codec's functions -/

/-- R90: `DEC_BCD` is the loop the rule writes. -/
def Obligations.DecBcdIsTheLoop : Prop :=
  ∀ x fuel : Nat, x ≤ fuel → decBcdLoop fuel 0 1 x = decBcd x

/-- R91: `ENC_BCD` is the loop the rule writes, and every nibble of its result is at most 9. -/
def Obligations.EncBcdIsTheLoop : Prop :=
  (∀ v fuel : Nat, v ≤ fuel → encBcdLoop fuel 0 0 v = encBcd v) ∧ ∀ v k : Nat, encBcd v / 16 ^ k % 16 ≤ 9

/-- R92: the arithmetic laws (a) to (f). -/
def Obligations.BcdLaws : Prop :=
  (∀ n, decBcd (encBcd n) = n) ∧
  (∀ x, encBcd (decBcd x) = x ↔ ∀ k, x / 16 ^ k % 16 ≤ 9) ∧
  (decBcd 0x1A = 20 ∧ decBcd 0x20 = 20) ∧
  (∀ b : Byte, decBcd b.toNat = 10 * (b.toNat / 16) + b.toNat % 16 ∧ decBcd b.toNat ≤ 165 ∧
    (b.toNat / 16 ≤ 9 → b.toNat % 16 ≤ 9 → decBcd b.toNat ≤ 99)) ∧
  (∀ v, v ≤ 99 → encBcd v = 16 * (v / 10) + v % 10 ∧ encBcd v ≤ 0x99) ∧
  (∀ v k, encBcd v < 16 ^ k ↔ v < 10 ^ k) ∧
  (∀ x k, x < 16 ^ k → decBcd x ≤ 15 * (10 ^ k - 1) / 9)

/-- R93: `BCD_BYTES(v, k)` byte by byte, least significant pair of digits first, and its inverse. -/
def Obligations.BcdBytesLayout : Prop :=
  ∀ v k, (bcdBytes v k).length = k ∧
    (∀ i, i < k → ∃ b, (bcdBytes v k)[i]? = some b ∧ b.toNat = encBcd (v / 100 ^ i % 100)) ∧
    (v < 100 ^ k → ((bcdBytes v k).mapIdx fun i b => decBcd b.toNat * 100 ^ i).sum = v)

/-- R95: decoding the five bytes of a frequency gives the frequency back, and five bytes of any content decode to at most
16,666,666,665. -/
def Obligations.FrequencyRoundTrip : Prop :=
  (∀ n, n ≤ 999999999 → ∃ b : Bytes5, freqEnc n = bytes5List b ∧ freqDec b = n) ∧
  (∀ b : Bytes5, freqDec b ≤ 16666666665)

/-- R96: `MODE_NAME` is defined exactly on the codes `MODE_CODE` gives, and undoes it. -/
def Obligations.ModeTableRoundTrip : Prop :=
  (∀ sel : BitVec 4, sel.toNat ≤ 9 → ∃ c, modeCode sel = some c ∧ modeName c = some sel) ∧
  (∀ sel : BitVec 4, sel.toNat > 9 → modeCode sel = none) ∧
  (∀ (b : Byte) (sel : BitVec 4), modeName b = some sel → sel.toNat ≤ 9 ∧ modeCode sel = some b)

/-! ## Codec operations -/

/-- R99: BCD.DEC puts the sum of the nibbles at the places 1, 10, ..., 10000 into `RES_VALUE`. What the operand
registers of lines it does not use hold is the model's choice (V2 leaves it open), log entry 7. -/
def Obligations.BcdDecResult : Prop :=
  ∀ (s : State) (x : BitVec 20), s.Ready → ∃ t v, exec (.bcdDec x) s = .next t ∧
    CodecDone s t { s.latch with opid := 0x01, x := x } { Results.zero with value := v } ∧
    v.toNat = x.toNat % 16 + 10 * (x.toNat / 16 % 16) + 100 * (x.toNat / 256 % 16) + 1000 * (x.toNat / 4096 % 16) +
      10000 * (x.toNat / 65536)

/-- R100: BCD.ENC puts the five decimal digits, as nibbles, into `RES_VALUE`. What the operand registers of lines it
does not use hold is the model's choice (V2 leaves it open), log entry 7. -/
def Obligations.BcdEncResult : Prop :=
  ∀ (s : State) (v : BitVec 16), s.Ready → ∃ t e, exec (.bcdEnc v) s = .next t ∧
    CodecDone s t { s.latch with opid := 0x02, v := v } { Results.zero with value := e } ∧
    e.toNat = v.toNat % 10 + 16 * (v.toNat / 10 % 10) + 256 * (v.toNat / 100 % 10) + 4096 * (v.toNat / 1000 % 10) +
      65536 * (v.toNat / 10000)

/-- R101: FREQ.ENC puts the five digit pairs of a legal frequency into `RES_BYTES`, the tens digit in the high nibble.
What the operand registers of lines it does not use hold is the model's choice (V2 leaves it open), log entry 7. -/
def Obligations.FreqEncResult : Prop :=
  ∀ (s : State) (n : BitVec 30), s.Ready →
    (n.toNat ≤ 999999999 → ∃ t b, exec (.freqEnc n) s = .next t ∧
      CodecDone s t { s.latch with opid := 0x03, n := n } { Results.zero with bytes := b, blen := 5 } ∧
      ∀ k, k < 5 → ∃ c, (bytes5List b)[k]? = some c ∧
        c.toNat / 16 = n.toNat / 100 ^ k / 10 % 10 ∧ c.toNat % 16 = n.toNat / 100 ^ k % 10) ∧
    (n.toNat > 999999999 → ∃ t, exec (.freqEnc n) s = .next t ∧ Refused s t { s.latch with opid := 0x03, n := n })

/-- R102: FREQ.DEC puts the weighted sum of the ten nibbles into `RES_VALUE`, whatever the nibbles. What the operand
registers of lines it does not use hold is the model's choice (V2 leaves it open), log entry 7. -/
def Obligations.FreqDecResult : Prop :=
  ∀ (s : State) (b : Bytes5), s.Ready → ∃ t v, exec (.freqDec b) s = .next t ∧
    CodecDone s t { s.latch with opid := 0x04, b := b } { Results.zero with value := v } ∧
    v.toNat = (10 * (b.b0.toNat / 16) + b.b0.toNat % 16) + 100 * (10 * (b.b1.toNat / 16) + b.b1.toNat % 16) +
      10000 * (10 * (b.b2.toNat / 16) + b.b2.toNat % 16) + 1000000 * (10 * (b.b3.toNat / 16) + b.b3.toNat % 16) +
      100000000 * (10 * (b.b4.toNat / 16) + b.b4.toNat % 16)

/-- R103: MODE.ENC gives the wire code of selectors 0 to 9 (0x17 for 9, else the selector) and refuses 10 to 15. What
the operand registers of lines it does not use hold is the model's choice (V2 leaves it open), log entry 7. -/
def Obligations.ModeEncResult : Prop :=
  ∀ (s : State) (sel : BitVec 4), s.Ready →
    (sel.toNat ≤ 9 → ∃ t c, exec (.modeEnc sel) s = .next t ∧
      CodecDone s t { s.latch with opid := 0x05, modeSel := sel }
        { Results.zero with bytes := { Bytes5.zero with b0 := c }, blen := 1 } ∧
      c.toNat = if sel = 9 then 0x17 else sel.toNat) ∧
    (sel.toNat > 9 → ∃ t, exec (.modeEnc sel) s = .next t ∧ Refused s t { s.latch with opid := 0x05, modeSel := sel })

/-- R104: MODE.DEC gives the selector of the ten known codes and MalformedResponse with `ERRPH` 0 for every other byte.
What the operand registers of lines it does not use hold is the model's choice (V2 leaves it open), log entry 7. -/
def Obligations.ModeDecResult : Prop :=
  ∀ (s : State) (b0 : Byte), s.Ready → ∃ t, exec (.modeDec b0) s = .next t ∧ SameBuffers s t ∧
    (b0.toNat ≤ 8 → CompletedQuietly s t .noError { s.latch with opid := 0x06, b := { s.latch.b with b0 := b0 } }
      { Results.zero with modeSel := BitVec.ofNat 4 b0.toNat }) ∧
    (b0 = 0x17 → CompletedQuietly s t .noError { s.latch with opid := 0x06, b := { s.latch.b with b0 := b0 } }
      { Results.zero with modeSel := 9 }) ∧
    (b0.toNat > 8 → b0 ≠ 0x17 → CompletedQuietly s t .malformedResponse
      { s.latch with opid := 0x06, b := { s.latch.b with b0 := b0 } } Results.zero)

/-- R105: CHAN.ENC gives one packed byte for the channels 0 to 99 and two bytes for the name "1A", and refuses every
other value. What the operand registers of lines it does not use hold is the model's choice (V2 leaves it open), log
entry 7. -/
def Obligations.ChanEncResult : Prop :=
  ∀ (s : State) (special : Bool) (val : Byte), s.Ready → ∃ t, exec (.chanEnc special val) s = .next t ∧
    (special = false → val.toNat ≤ 99 → ∃ c, c.toNat = 16 * (val.toNat / 10) + val.toNat % 10 ∧
      CodecDone s t { s.latch with opid := 0x07, chanKind := false, chanVal := val }
        { Results.zero with bytes := { Bytes5.zero with b0 := c }, blen := 1 }) ∧
    (special = false → val.toNat > 99 → Refused s t { s.latch with opid := 0x07, chanKind := false, chanVal := val }) ∧
    (special = true → val = 0 → CodecDone s t { s.latch with opid := 0x07, chanKind := true, chanVal := 0 }
        { Results.zero with bytes := { Bytes5.zero with b0 := 0x01, b1 := 0x00 }, blen := 2 }) ∧
    (special = true → val ≠ 0 → Refused s t { s.latch with opid := 0x07, chanKind := true, chanVal := val })

/-- R106: BANK.ENC gives the bank itself for 1 to 5 and refuses every other value. What the operand registers of lines
it does not use hold is the model's choice (V2 leaves it open), log entry 7. -/
def Obligations.BankEncResult : Prop :=
  ∀ (s : State) (bank : Byte), s.Ready → ∃ t, exec (.bankEnc bank) s = .next t ∧
    (1 ≤ bank.toNat ∧ bank.toNat ≤ 5 → CodecDone s t { s.latch with opid := 0x08, bank := bank }
      { Results.zero with bytes := { Bytes5.zero with b0 := bank }, blen := 1 }) ∧
    (¬ (1 ≤ bank.toNat ∧ bank.toNat ≤ 5) → Refused s t { s.latch with opid := 0x08, bank := bank })

/-! ## Builder operations -/

/-- R110, R111: BUILD of legal operands puts the frame, byte for byte, into `TXBUF`, with `TXLEN` its length, and leaves
`RXBUF`, `RXLEN`, `ECHOLEN` and `TXI` as they were. What the operand registers of lines it does not use hold is the
model's choice (V2 leaves it open), log entry 7. -/
def Obligations.BuildStoresTheFrame : Prop :=
  ∀ (s : State) (cmd : Byte) (hasSub : Bool) (sub : Byte) (dlen : BitVec 6) (data : List Byte), s.Ready →
    data.length = 32 → ¬ IllegalOperands s (.build cmd hasSub sub dlen data) →
    ∃ t, exec (.build cmd hasSub sub dlen data) s = .next t ∧
      CompletedQuietly s t .noError
        { s.latch with opid := 0x10, cmd := cmd, hasSub := hasSub, sub := sub, dlen := dlen, data := data }
        Results.zero ∧
      (∀ i, t.mem.txAt i =
        ([0xFE, 0xFE, 0x88, 0xE0, cmd] ++ (if hasSub then [sub] else []) ++ data.take dlen.toNat ++ [0xFD] : List Byte)[i]?) ∧
      t.txlen.toNat = 6 + (if hasSub then 1 else 0) + dlen.toNat ∧
      (∀ i, t.mem.rxAt i = s.mem.rxAt i) ∧ t.rxlen = s.rxlen

/-- R112: BUILD.PWRON puts the lead-in and the power-on frame into `TXBUF`, 9, 10, 24, 20 or 32 bytes for the selectors
0 to 4, and refuses 5 to 7 (0x01 as the sub-command for "on" is the spec's general knowledge, log entry 10). What the
operand registers of lines it does not use hold is the model's choice (V2 leaves it open), log entry 7. -/
def Obligations.BuildPwronStoresTheSequence : Prop :=
  ∀ (s : State) (baud : BitVec 3), s.Ready →
    (∀ k, (baud.toNat, k) ∈ [(0, 2), (1, 3), (2, 17), (3, 13), (4, 25)] →
      ∃ t, exec (.buildPwron baud) s = .next t ∧
        CompletedQuietly s t .noError { s.latch with opid := 0x11, baudSel := baud } Results.zero ∧
        (∀ i, t.mem.txAt i =
          (List.replicate k 0xFE ++ [0xFE, 0xFE, 0x88, 0xE0, 0x18, 0x01, 0xFD] : List Byte)[i]?) ∧
        t.txlen.toNat = k + 7 ∧ (∀ i, t.mem.rxAt i = s.mem.rxAt i) ∧ t.rxlen = s.rxlen) ∧
    (baud.toNat > 4 → ∃ t, exec (.buildPwron baud) s = .next t ∧
      Refused s t { s.latch with opid := 0x11, baudSel := baud })

/-- R79, R176: every operation whose operands (or, for EXEC, whose empty `TXBUF`) R176 names is refused with
UnsupportedValue: no I/O, every buffer, length and counter kept, results cleared. What the operand registers of lines it
does not use hold is the model's choice (V2 leaves it open), log entry 7. -/
def Obligations.IllegalOperandsRefused : Prop :=
  ∀ (i : Instr) (s : State), s.Ready → IllegalOperands s i → ∃ t, exec i s = .next t ∧ Refused s t (i.drive s.latch)

/-! ## The start of a transaction -/

/-- R121, R130: EXEC with something built enters TX at index 0 with `TXBUF` as it was. What the operand registers of
lines it does not use hold is the model's choice (V2 leaves it open), log entry 7. -/
def Obligations.ExecEntersTx : Prop :=
  ∀ s : State, s.Ready → s.mem.wf = true → s.mem.txbuf ≠ [] →
    ∃ t, exec .execute s = .next t ∧ TxnBegun s t { s.latch with opid := 0x20 } s.mem.txbuf

/-- R74, R130: each operation without operands loads its frame into `TXBUF` and enters TX (which of 0x00 and 0x01 is
"off" and which is VFO A is the spec's general knowledge, log entry 10). What the operand registers of lines it does not
use hold is the model's choice (V2 leaves it open), log entry 7. -/
def Obligations.PlainCommandsEnterTx : Prop :=
  ∀ (s : State) (i : Instr) (opid : Byte) (body : List Byte), s.Ready →
    (i, opid, body) ∈ [(Instr.pwrOff, (0x30 : Byte), ([0x18, 0x00] : List Byte)), (.vfoA, 0x32, [0x07, 0x00]),
      (.vfoB, 0x33, [0x07, 0x01]), (.memMode, 0x34, [0x08]), (.freqRd, 0x37, [0x03]), (.modeRd, 0x39, [0x04]),
      (.pttRx, 0x3B, [0x1C, 0x00, 0x00]), (.pttTx, 0x3C, [0x1C, 0x00, 0x01])] →
    ∃ t, exec i s = .next t ∧
      TxnBegun s t { s.latch with opid := opid } ([0xFE, 0xFE, 0x88, 0xE0] ++ body ++ [0xFD])

/-- R74, R153, R130: PWR.ON at a legal baud rate loads the lead-in and the frame and enters TX (the sub-command 0x01:
log entry 10). What the operand registers of lines it does not use hold is the model's choice (V2 leaves it open), log
entry 7. -/
def Obligations.PwrOnEntersTx : Prop :=
  ∀ (s : State) (baud : BitVec 3) (k : Nat), s.Ready →
    (baud.toNat, k) ∈ [(0, 2), (1, 3), (2, 17), (3, 13), (4, 25)] →
    ∃ t, exec (.pwrOn baud) s = .next t ∧ TxnBegun s t { s.latch with opid := 0x31, baudSel := baud }
      (List.replicate k 0xFE ++ [0xFE, 0xFE, 0x88, 0xE0, 0x18, 0x01, 0xFD])

/-- R74, R130: MEM.BANK, MEM.CHAN and MODE.SET with legal operands load their frames and enter TX. What the operand
registers of lines it does not use hold is the model's choice (V2 leaves it open), log entry 7. -/
def Obligations.SelectCommandsEnterTx : Prop :=
  ∀ s : State, s.Ready →
    (∀ bank : Byte, 1 ≤ bank.toNat → bank.toNat ≤ 5 → ∃ t, exec (.memBank bank) s = .next t ∧
      TxnBegun s t { s.latch with opid := 0x35, bank := bank } [0xFE, 0xFE, 0x88, 0xE0, 0x08, 0xA0, bank, 0xFD]) ∧
    (∀ val : Byte, val.toNat ≤ 99 → ∃ t c, exec (.memChan false val) s = .next t ∧
      c.toNat = 16 * (val.toNat / 10) + val.toNat % 10 ∧
      TxnBegun s t { s.latch with opid := 0x36, chanKind := false, chanVal := val }
        [0xFE, 0xFE, 0x88, 0xE0, 0x08, c, 0xFD]) ∧
    (∃ t, exec (.memChan true 0) s = .next t ∧ TxnBegun s t { s.latch with opid := 0x36, chanKind := true, chanVal := 0 }
      [0xFE, 0xFE, 0x88, 0xE0, 0x08, 0x01, 0x00, 0xFD]) ∧
    (∀ sel : BitVec 4, sel.toNat ≤ 9 → ∃ t c, exec (.modeSet sel) s = .next t ∧
      c.toNat = (if sel = 9 then 0x17 else sel.toNat) ∧
      TxnBegun s t { s.latch with opid := 0x3A, modeSel := sel } [0xFE, 0xFE, 0x88, 0xE0, 0x06, c, 0xFD])

/-- R69, R74, R130: FREQ.SET of a legal frequency loads its eleven bytes, `b_k` the digit pair of 100^k with the tens
digit in the high nibble, and enters TX. What the operand registers of lines it does not use hold is the model's choice
(V2 leaves it open), log entry 7. -/
def Obligations.FreqSetEntersTx : Prop :=
  ∀ (s : State) (n : BitVec 30), s.Ready → n.toNat ≤ 999999999 → ∃ t b, exec (.freqSet n) s = .next t ∧
    TxnBegun s t { s.latch with opid := 0x38, n := n } ([0xFE, 0xFE, 0x88, 0xE0, 0x00] ++ bytes5List b ++ [0xFD]) ∧
    ∀ k, k < 5 → ∃ c, (bytes5List b)[k]? = some c ∧
      c.toNat / 16 = n.toNat / 100 ^ k / 10 % 10 ∧ c.toNat % 16 = n.toNat / 100 ^ k % 10

/-- R82: a command operation with legal operands enters TX in the same state, but for the operand registers, as BUILD of
its frame followed by EXEC, and PWR.ON at a legal baud rate as BUILD.PWRON followed by EXEC (`build` stands for R111's
operands; the sub-commands of power and VFO: log entry 10). -/
def Obligations.CommandIsBuildThenExec : Prop :=
  (∀ (s : State) (i : Instr) (cmd : Byte) (hasSub : Bool) (sub : Byte) (d : List Byte), s.Ready →
    (i, cmd, hasSub, sub, d) ∈ [(Instr.pwrOff, (0x18 : Byte), true, (0x00 : Byte), ([] : List Byte)),
      (.vfoA, 0x07, true, 0x00, []), (.vfoB, 0x07, true, 0x01, []), (.memMode, 0x08, false, 0x00, []),
      (.freqRd, 0x03, false, 0x00, []), (.modeRd, 0x04, false, 0x00, []), (.pttRx, 0x1C, true, 0x00, [0x00]),
      (.pttTx, 0x1C, true, 0x00, [0x01])] ∨
      (∃ bank, i = .memBank bank ∧ cmd = 0x08 ∧ hasSub = true ∧ sub = 0xA0 ∧ bankByte bank = some bank ∧ d = [bank]) ∨
      (∃ sp val, i = .memChan sp val ∧ cmd = 0x08 ∧ hasSub = false ∧ chanBytes sp val = some d) ∨
      (∃ n, i = .freqSet n ∧ cmd = 0x00 ∧ hasSub = false ∧ freqBytes n = some d) ∨
      (∃ sel c, i = .modeSet sel ∧ cmd = 0x06 ∧ hasSub = false ∧ modeCode sel = some c ∧ d = [c]) →
    ∃ t u v, exec i s = .next t ∧
      exec (.build cmd hasSub sub (BitVec.ofNat 6 d.length) (d ++ List.replicate (32 - d.length) 0)) s = .next u ∧
      exec .execute u = .next v ∧ { t with latch := v.latch } = v) ∧
  (∀ (s : State) (baud : BitVec 3), s.Ready → baud.toNat ≤ 4 →
    ∃ t u v, exec (.pwrOn baud) s = .next t ∧ exec (.buildPwron baud) s = .next u ∧ exec .execute u = .next v ∧
      { t with latch := v.latch } = v)

/-! ## The steps of a transaction -/

/-- R122: one step of TX for each answer of the environment: Ok moves on, after the last byte to the echo read; Fail ends
the operation with TransportUnavailable charged to TX and `TXI` kept. -/
def Obligations.TxStepByAnswer : Prop :=
  ∀ (s : State) (b : Byte) (a : TxAnswer) (rest : List (Option TxAnswer)), s.phase = .tx →
    s.mem.txAt s.txi.toNat = some b → s.mem.txbuf.length ≤ 64 → s.env.tx = some a :: rest →
    ∃ t, step s = .next t ∧ t.trace = s.trace ++ [.wrote b a] ∧ t.env = { s.env with tx := rest } ∧
      SameBuffers s t ∧ t.latch = s.latch ∧ t.results = s.results ∧ t.port = s.port ∧ t.echolen = s.echolen ∧
      (a = .ok → t.txi.toNat = s.txi.toNat + 1 ∧ t.status = s.status ∧
        (s.mem.txAt (s.txi.toNat + 1) = none → t.phase = .rxEcho) ∧
        (s.mem.txAt (s.txi.toNat + 1) ≠ none → t.phase = .tx)) ∧
      (a = .fail → t.txi = s.txi ∧ t.phase = .idle ∧
        t.status = { s.status with busy := false, done := true, err := .transportUnavailable, errph := .tx })

/-- R124: one step of RX_ECHO or RX_REPLY that completes no frame: a byte is stored; the byte that fills the buffer ends the
operation with MalformedResponse; Timeout and Fail end it with Timeout and TransportUnavailable and keep the partial
response. -/
def Obligations.RxStepWithoutTerminator : Prop :=
  ∀ (s : State) (a : RxAnswer) (rest : List (Option RxAnswer)), s.phase = .rxEcho ∨ s.phase = .rxReply →
    s.mem.rxbuf.length < 64 → s.env.rx = some a :: rest → a ≠ .byte 0xFD →
    ∃ t, step s = .next t ∧ t.trace = s.trace ++ [.got a] ∧ t.env = { s.env with rx := rest } ∧
      (∀ i, t.mem.txAt i = s.mem.txAt i) ∧ t.latch = s.latch ∧ t.results = s.results ∧ t.port = s.port ∧
      t.echolen = s.echolen ∧ t.txi = s.txi ∧
      (∀ b, a = .byte b → t.rxlen.toNat = s.rxlen.toNat + 1 ∧ t.mem.rxAt s.rxlen.toNat = some b ∧
        (∀ i, i < s.rxlen.toNat → t.mem.rxAt i = s.mem.rxAt i) ∧
        (s.rxlen.toNat < 63 → t.phase = s.phase ∧ t.status = s.status) ∧
        (s.rxlen.toNat = 63 → t.phase = .idle ∧
          t.status = { s.status with busy := false, done := true, err := .malformedResponse, errph := s.phase })) ∧
      (a = .timeout → SameBuffers s t ∧ t.phase = .idle ∧
        t.status = { s.status with busy := false, done := true, err := .timeout, errph := s.phase }) ∧
      (a = .fail → SameBuffers s t ∧ t.phase = .idle ∧
        t.status = { s.status with busy := false, done := true, err := .transportUnavailable, errph := s.phase })

/-- R125: the terminator in RX_ECHO sets `EM` by comparing the whole echo with the whole of `TXBUF`, keeps its length in
`ECHOLEN`, empties `RXBUF` and goes on to RX_REPLY; a mismatch stops nothing. -/
def Obligations.EchoCompletes : Prop :=
  ∀ (s : State) (rest : List (Option RxAnswer)), s.phase = .rxEcho → s.mem.rxbuf.length < 64 →
    s.env.rx = some (.byte 0xFD) :: rest →
    ∃ t, step s = .next t ∧ t.phase = .rxReply ∧
      (t.status.em = false ↔ ∀ i, (s.mem.rxbuf ++ [0xFD])[i]? = s.mem.txAt i) ∧
      t.status = { s.status with em := t.status.em } ∧ t.echolen.toNat = s.mem.rxbuf.length + 1 ∧ t.rxlen = 0 ∧
      (∀ i, t.mem.rxAt i = none) ∧ (∀ i, t.mem.txAt i = s.mem.txAt i) ∧ t.txi = s.txi ∧ t.latch = s.latch ∧
      t.results = s.results ∧ t.port = s.port ∧ t.env = { s.env with rx := rest } ∧
      t.trace = s.trace ++ [.got (.byte 0xFD)]

/-- R126 to R128: how EXEC ends when its reply is complete. -/
def Obligations.ExecReplyTable : Prop :=
  ∀ (s : State) (rest : List (Option RxAnswer)), s.phase = .rxReply → s.mem.rxbuf.length < 64 →
    s.env.rx = some (.byte 0xFD) :: rest → s.latch.opid = 0x20 →
    ∃ t o e ph, step s = .next t ∧ ReplyDone s t (s.mem.rxbuf ++ [0xFD]) rest o e ph s.results ∧
      (s.mem.rxbuf.length ≠ 5 → o = .data) ∧
      (s.mem.rxbuf.length = 5 → s.mem.rxAt 4 = some 0xFB → o = .ok) ∧
      (s.mem.rxbuf.length = 5 → s.mem.rxAt 4 = some 0xFA → o = .rejected) ∧
      (s.mem.rxbuf.length = 5 → s.mem.rxAt 4 ≠ some 0xFB → s.mem.rxAt 4 ≠ some 0xFA → o = .anomalous) ∧
      (o = .rejected → e = .rejected ∧ ph = .rxReply) ∧
      (o = .anomalous → e = .malformedResponse ∧ ph = .rxReply) ∧
      (o = .ok ∨ o = .data → s.status.em = true → e = .echoMismatch ∧ ph = .rxEcho) ∧
      (o = .ok ∨ o = .data → s.status.em = false → e = .noError ∧ ph = .idle)

/-- R151: how a set or select operation ends when its reply is complete: a status reply as for EXEC, a reply with a payload
as MalformedResponse (the spec's own reading of "unexpected", D22, which R151 marks so); no result register is written. -/
def Obligations.SetReplyTable : Prop :=
  ∀ (s : State) (rest : List (Option RxAnswer)), s.phase = .rxReply → s.mem.rxbuf.length < 64 →
    s.env.rx = some (.byte 0xFD) :: rest →
    s.latch.opid.toNat ∈ [0x30, 0x31, 0x32, 0x33, 0x34, 0x35, 0x36, 0x38, 0x3A, 0x3B, 0x3C] →
    ∃ t o e ph, step s = .next t ∧ ReplyDone s t (s.mem.rxbuf ++ [0xFD]) rest o e ph s.results ∧
      (s.mem.rxbuf.length ≠ 5 → o = .data ∧ e = .malformedResponse ∧ ph = .rxReply) ∧
      (s.mem.rxbuf.length = 5 → s.mem.rxAt 4 = some 0xFB → o = .ok ∧
        (s.status.em = true → e = .echoMismatch ∧ ph = .rxEcho) ∧ (s.status.em = false → e = .noError ∧ ph = .idle)) ∧
      (s.mem.rxbuf.length = 5 → s.mem.rxAt 4 = some 0xFA → o = .rejected ∧ e = .rejected ∧ ph = .rxReply) ∧
      (s.mem.rxbuf.length = 5 → s.mem.rxAt 4 ≠ some 0xFB → s.mem.rxAt 4 ≠ some 0xFA →
        o = .anomalous ∧ e = .malformedResponse ∧ ph = .rxReply)

/-- R159: how FREQ.RD ends when its reply is complete: eleven bytes are decoded at the indices 5 to 9, whatever the header
and even after an echo mismatch; an OK or a payload of another length is MalformedResponse. -/
def Obligations.FreqRdReplyTable : Prop :=
  ∀ (s : State) (rest : List (Option RxAnswer)), s.phase = .rxReply → s.mem.rxbuf.length < 64 →
    s.env.rx = some (.byte 0xFD) :: rest → s.latch.opid = 0x37 →
    ∃ t o e ph res, step s = .next t ∧ ReplyDone s t (s.mem.rxbuf ++ [0xFD]) rest o e ph res ∧
      (∀ b : Bytes5, s.mem.rxbuf.length = 10 → s.mem.rxbuf.drop 5 = bytes5List b → o = .data ∧
        (∃ v, res = { s.results with value := v } ∧
          v.toNat = (10 * (b.b0.toNat / 16) + b.b0.toNat % 16) + 100 * (10 * (b.b1.toNat / 16) + b.b1.toNat % 16) +
            10000 * (10 * (b.b2.toNat / 16) + b.b2.toNat % 16) + 1000000 * (10 * (b.b3.toNat / 16) + b.b3.toNat % 16) +
            100000000 * (10 * (b.b4.toNat / 16) + b.b4.toNat % 16)) ∧
        (s.status.em = true → e = .echoMismatch ∧ ph = .rxEcho) ∧ (s.status.em = false → e = .noError ∧ ph = .idle)) ∧
      (s.mem.rxbuf.length ≠ 10 → res = s.results) ∧
      (s.mem.rxbuf.length ≠ 10 → s.mem.rxbuf.length ≠ 5 → o = .data ∧ e = .malformedResponse ∧ ph = .rxReply) ∧
      (s.mem.rxbuf.length = 5 → s.mem.rxAt 4 = some 0xFB → o = .ok ∧ e = .malformedResponse ∧ ph = .rxReply) ∧
      (s.mem.rxbuf.length = 5 → s.mem.rxAt 4 = some 0xFA → o = .rejected ∧ e = .rejected ∧ ph = .rxReply) ∧
      (s.mem.rxbuf.length = 5 → s.mem.rxAt 4 ≠ some 0xFB → s.mem.rxAt 4 ≠ some 0xFA →
        o = .anomalous ∧ e = .malformedResponse ∧ ph = .rxReply)

/-- R161: how MODE.RD ends when its reply is complete: in seven or eight bytes the code at index 5 gives the mode, and in
eight the byte at index 6 the filter; an unknown code, another length or an OK is MalformedResponse. -/
def Obligations.ModeRdReplyTable : Prop :=
  ∀ (s : State) (rest : List (Option RxAnswer)), s.phase = .rxReply → s.mem.rxbuf.length < 64 →
    s.env.rx = some (.byte 0xFD) :: rest → s.latch.opid = 0x39 →
    ∃ t o e ph res, step s = .next t ∧ ReplyDone s t (s.mem.rxbuf ++ [0xFD]) rest o e ph res ∧
      (∀ (c : Byte) (sel : BitVec 4), s.mem.rxbuf.length = 6 ∨ s.mem.rxbuf.length = 7 → s.mem.rxAt 5 = some c →
        c.toNat = (if sel = 9 then 0x17 else sel.toNat) → sel.toNat ≤ 9 → o = .data ∧
        (s.mem.rxbuf.length = 6 → res = { s.results with modeSel := sel }) ∧
        (∀ f : Byte, s.mem.rxAt 6 = some f → ∃ w, w.toNat = 10 * (f.toNat / 16) + f.toNat % 16 ∧
          res = { s.results with modeSel := sel, filter := w, hasFilter := true }) ∧
        (s.status.em = true → e = .echoMismatch ∧ ph = .rxEcho) ∧ (s.status.em = false → e = .noError ∧ ph = .idle)) ∧
      (∀ c : Byte, s.mem.rxbuf.length = 6 ∨ s.mem.rxbuf.length = 7 → s.mem.rxAt 5 = some c → c.toNat > 8 → c ≠ 0x17 →
        o = .data ∧ e = .malformedResponse ∧ ph = .rxReply ∧ res = s.results) ∧
      (s.mem.rxbuf.length ≠ 5 → s.mem.rxbuf.length ≠ 6 → s.mem.rxbuf.length ≠ 7 →
        o = .data ∧ e = .malformedResponse ∧ ph = .rxReply ∧ res = s.results) ∧
      (s.mem.rxbuf.length = 5 → res = s.results) ∧
      (s.mem.rxbuf.length = 5 → s.mem.rxAt 4 = some 0xFB → o = .ok ∧ e = .malformedResponse ∧ ph = .rxReply) ∧
      (s.mem.rxbuf.length = 5 → s.mem.rxAt 4 = some 0xFA → o = .rejected ∧ e = .rejected ∧ ph = .rxReply) ∧
      (s.mem.rxbuf.length = 5 → s.mem.rxAt 4 ≠ some 0xFB → s.mem.rxAt 4 ≠ some 0xFA →
        o = .anomalous ∧ e = .malformedResponse ∧ ph = .rxReply)

/-- R132, R222: while the environment does not answer, the block stays where it is, busy, and nothing but the environment's
moment passes (the wait as a step that changes nothing is the model's choice, log entry 3). -/
def Obligations.SilentEnvironmentBlockWaits : Prop :=
  (∀ (s : State) (rest : List (Option TxAnswer)), s.phase = .tx → s.txi.toNat < s.mem.txbuf.length →
    s.env.tx = none :: rest → step s = .next { s with env := { s.env with tx := rest } }) ∧
  (∀ (s : State) (rest : List (Option RxAnswer)), s.phase = .rxEcho ∨ s.phase = .rxReply → s.mem.rxbuf.length < 64 →
    s.env.rx = none :: rest → step s = .next { s with env := { s.env with rx := rest } })

/-- R19, R130: `PHASE` advances IDLE, TX, RX_ECHO, RX_REPLY, IDLE, stays, or falls back to IDLE; nothing else. -/
def Obligations.PhaseOrder : Prop :=
  ∀ s t : State, step s = .next t → t.phase = s.phase ∨ t.phase = .idle ∨
    (s.phase, t.phase) ∈ [(Phase.idle, Phase.tx), (.tx, .rxEcho), (.rxEcho, .rxReply)]

/-! ## Errors and status -/

/-- R181: raising an error records it with the phase and completes the operation; nothing else is written. -/
def Obligations.RaiseRecordsAndCompletes : Prop :=
  ∀ (s : State) (e : ErrCode), (s.raise e).status.err = e ∧ (s.raise e).status.errph = s.phase ∧
    (s.raise e).status.busy = false ∧ (s.raise e).status.done = true ∧ (s.raise e).phase = .idle ∧
    { s.raise e with status := { (s.raise e).status with err := s.status.err, errph := s.status.errph,
                                                          busy := s.status.busy, done := s.status.done }
                     phase := s.phase } = s

/-- R21: the fields of `STATUS` stand at their bits, with their codes, and bits 15:11 read as 0. -/
def Obligations.StatusWordFields : Prop :=
  ∀ st : Status,
    (statusWord st).getLsbD 0 = st.busy ∧ (statusWord st).getLsbD 1 = st.done ∧ (statusWord st).getLsbD 2 = st.em ∧
    ((statusWord st).toNat / 8 % 8, st.outcome) ∈ [(0, TxnOutcome.noOutcome), (1, .ok), (2, .rejected), (3, .data),
      (4, .anomalous)] ∧
    ((statusWord st).toNat / 64 % 8, st.err) ∈ [(0, ErrCode.noError), (1, .transportUnavailable), (2, .echoMismatch),
      (3, .rejected), (4, .malformedResponse), (5, .unsupportedValue), (6, .timeout)] ∧
    ((statusWord st).toNat / 512 % 4, st.errph) ∈ [(0, Phase.idle), (1, .tx), (2, .rxEcho), (3, .rxReply)] ∧
    (statusWord st).toNat / 2048 = 0

/-- R16, R28, R207: the caller reads `STATUS` at any time, and no other register gives a value while busy ("not defined"
as no value is the model's choice, log entry 17); when not busy each register of R28 gives its own value, and when
`DONE` is 1 the result record holds each field of R16. -/
def Obligations.CallerReadsWhenNotBusy : Prop :=
  ∀ s : State, s.callerRead .status = some (statusWord s.status).toNat ∧
    (s.status.busy = true → ∀ r : CallerReg, r ≠ .status → s.callerRead r = none) ∧
    (s.status.busy = false →
      s.callerRead .resValue = some s.results.value.toNat ∧
      [0, 1, 2, 3, 4].map (fun i => s.callerRead (.resByte i)) =
        [s.results.bytes.b0, s.results.bytes.b1, s.results.bytes.b2, s.results.bytes.b3, s.results.bytes.b4].map
          (fun b => some b.toNat) ∧
      (∀ i, 5 ≤ i → s.callerRead (.resByte i) = none) ∧
      s.callerRead .resBlen = some s.results.blen.toNat ∧ s.callerRead .resModeSel = some s.results.modeSel.toNat ∧
      s.callerRead .resFilter = some s.results.filter.toNat ∧
      s.callerRead .resHasFilter = some (if s.results.hasFilter then 1 else 0) ∧
      (∀ i b, s.mem.txbuf[i]? = some b → s.callerRead (.txbuf i) = some b.toNat) ∧
      (∀ i, s.mem.txbuf.length ≤ i → s.callerRead (.txbuf i) = none) ∧
      (∀ i b, s.mem.rxbuf[i]? = some b → s.callerRead (.rxbuf i) = some b.toNat) ∧
      (∀ i, s.mem.rxbuf.length ≤ i → s.callerRead (.rxbuf i) = none) ∧
      (s.mem.wf = true → s.callerRead .txlen = some s.mem.txbuf.length ∧ s.callerRead .rxlen = some s.mem.rxbuf.length) ∧
      s.callerRead .txi = some s.txi.toNat ∧ s.callerRead .echolen = some s.echolen.toNat ∧
      (s.phase, s.callerRead .phase) ∈ [(Phase.idle, some 0), (.tx, some 1), (.rxEcho, some 2), (.rxReply, some 3)] ∧
      s.callerRead .cfgDst = some 0x88 ∧ s.callerRead .cfgSrc = some 0xE0) ∧
    (s.status.done = false → s.resultRecord = none) ∧
    (s.status.done = true → ∃ rec, s.resultRecord = some rec ∧
      rec.err = s.status.err ∧ rec.errph = s.status.errph ∧ rec.outcome = s.status.outcome ∧ rec.em = s.status.em ∧
      rec.value = s.results.value ∧
      (s.results.blen.toNat ≤ 5 → rec.bytes.length = s.results.blen.toNat ∧
        ∀ i, i < s.results.blen.toNat → rec.bytes[i]? = (bytes5List s.results.bytes)[i]?) ∧
      rec.modeSel = s.results.modeSel ∧ rec.filter = s.results.filter ∧ rec.hasFilter = s.results.hasFilter ∧
      rec.rx.length = s.mem.rxbuf.length ∧ (∀ i, rec.rx[i]? = s.mem.rxAt i) ∧
      rec.echolen = s.echolen ∧ rec.txi = s.txi)

/-! ## The whole block -/

/-- Every step from a state with the invariant ends in a state with the invariant. -/
def Obligations.StepKeepsInvariant : Prop :=
  ∀ s t : State, Inv s → step s = .next t → Inv t

/-- From a state with the invariant a step never faults and refuses nothing: the transition table has a row for it. -/
def Obligations.InvariantStatesAlwaysStep : Prop :=
  ∀ s : State, Inv s → ∃ t, step s = .next t

/-- R133, of every step from a state with the invariant: in the trace after the step every write precedes every read,
and where a read stands, the writes before it are `TXBUF[0]` to `TXBUF[TXLEN-1]` in order, all Ok, and no other event is
a write; and an acceptance begins with the empty trace, whatever the operation (the trace as a field of State: log entry
9). -/
def Obligations.WritesPrecedeReads : Prop :=
  ∀ s t : State, Inv s → step s = .next t →
    (∀ (i j : Nat) (b : Byte) (w : TxAnswer) (a : RxAnswer), t.trace[i]? = some (.wrote b w) →
      t.trace[j]? = some (.got a) → i < j) ∧
    (∀ (j : Nat) (a : RxAnswer), t.trace[j]? = some (.got a) → t.mem.txbuf.length ≤ j ∧
      (∀ i, i < t.mem.txbuf.length → t.trace[i]? = (t.mem.txAt i).map fun b => Event.wrote b .ok) ∧
      (∀ i, t.mem.txbuf.length ≤ i → ∀ b w, t.trace[i]? ≠ some (.wrote b w))) ∧
    (s.phase = .idle → s.port ≠ [] → t.trace = [])

/-- R131: the small steps, run from the start of a transaction against given answers, end in exactly the values of the
one function `TXN` of those answers, with `FINAL_ERR` and the operation's interpretation deciding what `TXN` leaves to
its caller. -/
def Obligations.SmallStepsAgreeWithTxn : Prop :=
  ∀ (s : State) (w : List TxAnswer) (a : List RxAnswer) (moreW : List (Option TxAnswer)) (moreA : List (Option RxAnswer))
    (r : TxnResult), TxnAtStart s → s.env.tx = w.map some ++ moreW → s.env.rx = a.map some ++ moreA →
    txn s.mem.txbuf w a = some r →
    ∃ n t, n ≤ s.mem.txbuf.length + 2 * 64 ∧ Host.Core.run Sys2Proof.core n s = .next t ∧ TxnEnded s t r moreA

/-- R132: every transaction in progress completes within `TXLEN` writes and twice `RXMAX` reads, provided the environment
answers every call. -/
def Obligations.AnsweredTransactionCompletes : Prop :=
  ∀ s : State, Inv s → s.phase ≠ .idle →
    (∀ i, i < s.mem.txbuf.length → ∃ a, s.env.tx[i]? = some (some a)) →
    (∀ i, i < 2 * 64 → ∃ a, s.env.rx[i]? = some (some a)) →
    ∃ n t, n ≤ s.mem.txbuf.length + 2 * 64 ∧ Host.Core.run Sys2Proof.core n s = .next t ∧ t.phase = .idle ∧
      t.status.busy = false ∧ t.status.done = true

/-- R121, R150, whole operation: a request for EXEC or for a command operation with legal operands, presented to a ready
block, runs the transaction of its sequence (R74) against the environment's answers and ends with the values of `TXN`,
with its own interpretation and `FINAL_ERR` on a completed reply (sub-commands: log entry 10). That the operand
registers hold every line of the record is the model's choice (V2), log entry 7. -/
def Obligations.RequestRunsItsTransaction : Prop :=
  ∀ (s : State) (q : Request) (rest : List Request) (i : Instr) (f : List Byte) (w : List TxAnswer) (a : List RxAnswer)
    (moreW : List (Option TxAnswer)) (moreA : List (Option RxAnswer)) (r : TxnResult),
    s.Ready → s.mem.wf = true → s.port = q :: rest → decode q = .ok i → sequenceOf s i = some f →
    s.env.tx = w.map some ++ moreW → s.env.rx = a.map some ++ moreA → txn f w a = some r →
    ∃ n t, n ≤ 1 + f.length + 2 * 64 ∧ Host.Core.run Sys2Proof.core n s = .next t ∧
      TxnEnded { s with latch := q, results := Results.zero, port := rest, mem := { txbuf := f, rxbuf := [] } } t r moreA

/-- R159, whole operation: FREQ.RD presented to a ready block, every byte taken, any complete echo, and a reply that
carries the payload of `n` behind any five header bytes but the terminator: the operation completes with `RES_VALUE` = `n`,
and reports EchoMismatch exactly when the echo differed. -/
def Obligations.FreqRdDeliversTheFrequency : Prop :=
  ∀ (s : State) (r : Request) (rest : List Request) (n : Nat) (echo header : List Byte) (moreW : List (Option TxAnswer))
    (moreA : List (Option RxAnswer)), s.Ready → s.port = r :: rest → r.opid = 0x37 → n ≤ 999999999 →
    (0xFD : Byte) ∉ echo → echo.length < 64 → (0xFD : Byte) ∉ header → header.length = 5 →
    s.env.tx = List.replicate 6 (some .ok) ++ moreW →
    s.env.rx = (echo ++ [0xFD] ++ header ++ freqEnc n ++ [0xFD]).map (fun b => some (.byte b)) ++ moreA →
    ∃ k t, Host.Core.run Sys2Proof.core k s = .next t ∧ t.phase = .idle ∧ t.status.done = true ∧
      t.status.outcome = .data ∧ t.results.value.toNat = n ∧ t.port = rest ∧ t.env.rx = moreA ∧
      t.trace = writesOk [0xFE, 0xFE, 0x88, 0xE0, 0x03, 0xFD] ++
        readsOf (echo ++ [0xFD] ++ header ++ freqEnc n ++ [0xFD]) ∧
      (echo = [0xFE, 0xFE, 0x88, 0xE0, 0x03] → t.status.em = false ∧ t.status.err = .noError) ∧
      (echo ≠ [0xFE, 0xFE, 0x88, 0xE0, 0x03] → t.status.em = true ∧ t.status.err = .echoMismatch ∧
        t.status.errph = .rxEcho)

/-! ## The wire -/

/-- R83: the sequence each command operation leaves in `TXBUF` shows the operation that made it (sub-commands: log entry
10; reading back by the table's constraints: log entry 20). -/
def Obligations.WireShowsTheCommand : Prop :=
  ∀ (s t : State), s.Ready →
    (exec .pwrOff s = .next t → identify t.mem.txbuf = some .pwrOff) ∧
    (∀ baud, baud.toNat ≤ 4 → exec (.pwrOn baud) s = .next t → identify t.mem.txbuf = some .pwrOn) ∧
    (exec .vfoA s = .next t → identify t.mem.txbuf = some .vfoA) ∧
    (exec .vfoB s = .next t → identify t.mem.txbuf = some .vfoB) ∧
    (exec .memMode s = .next t → identify t.mem.txbuf = some .memMode) ∧
    (∀ bank, 1 ≤ bank.toNat → bank.toNat ≤ 5 → exec (.memBank bank) s = .next t →
      identify t.mem.txbuf = some (.memBank bank)) ∧
    (∀ val, val.toNat ≤ 99 → exec (.memChan false val) s = .next t → ∃ c, identify t.mem.txbuf = some (.memChan c) ∧
      c.toNat = 16 * (val.toNat / 10) + val.toNat % 10) ∧
    (exec (.memChan true 0) s = .next t → identify t.mem.txbuf = some .memChanSpecial) ∧
    (exec .freqRd s = .next t → identify t.mem.txbuf = some .freqRd) ∧
    (∀ n, n.toNat ≤ 999999999 → exec (.freqSet n) s = .next t →
      identify t.mem.txbuf = some (.freqSet (freqEnc n.toNat))) ∧
    (exec .modeRd s = .next t → identify t.mem.txbuf = some .modeRd) ∧
    (∀ sel, sel.toNat ≤ 9 → exec (.modeSet sel) s = .next t → identify t.mem.txbuf = some (.modeSet sel)) ∧
    (exec .pttRx s = .next t → identify t.mem.txbuf = some .pttRx) ∧
    (exec .pttTx s = .next t → identify t.mem.txbuf = some .pttTx)

/-- R61, R83: the patterns of the table's `wire` rows for the command operations are pairwise disjoint, and a frame that
belongs to a row is read back, by R83's procedure, as the operation of that row (log entry 20). -/
def Obligations.WireRowsAgreeWithTheReading : Prop :=
  ∀ (f : List Byte) (row : WireRow), row ∈ wireRows → row.belongs f = true →
    (∃ op, identify f = some op ∧ op.mnemonic = row.mnemonic) ∧
    ∀ other : WireRow, other ∈ wireRows → other.belongs f = true → other = row
end

