-- ==== Sys2Proof/Laws/Bcd.lean ====
section
/-! SUPPORT. The recursion equations of the BCD functions (R90, R91 of `40_bcd_codec.md`: "Equivalently"), so that no proof
unfolds the fuel. -/

namespace Sys2Proof.Machine

theorem decBcdFuel_stable (fuel : Nat) : ∀ x, x ≤ fuel → decBcdFuel fuel x = decBcdFuel x x := by
  induction fuel using Nat.strong_induction_on with
  | _ fuel ih =>
    intro x hx
    match fuel, x with
    | 0, 0 => rfl
    | f + 1, 0 => simp [decBcdFuel]
    | f + 1, x + 1 =>
      have hf : (x + 1) / 16 ≤ f := by omega
      have hx' : (x + 1) / 16 ≤ x := by omega
      simp only [decBcdFuel, Nat.add_eq_zero_iff, one_ne_zero, and_false, if_false]
      rw [ih f (by omega) _ hf, ih x (by omega) _ hx']

@[simp] theorem decBcd_zero : decBcd 0 = 0 := rfl

/-- R90: `DEC_BCD(x) = (x mod 16) + 10 * DEC_BCD(x div 16)` (at 0 both sides are 0). -/
theorem decBcd_eq (x : Nat) : decBcd x = x % 16 + 10 * decBcd (x / 16) := by
  match x with
  | 0 => rfl
  | x + 1 =>
    simp only [decBcd]
    rw [decBcdFuel]
    simp only [Nat.add_eq_zero_iff, one_ne_zero, and_false, if_false]
    rw [decBcdFuel_stable x _ (by omega)]

theorem encBcdFuel_stable (fuel : Nat) : ∀ v, v ≤ fuel → encBcdFuel fuel v = encBcdFuel v v := by
  induction fuel using Nat.strong_induction_on with
  | _ fuel ih =>
    intro v hv
    match fuel, v with
    | 0, 0 => rfl
    | f + 1, 0 => simp [encBcdFuel]
    | f + 1, v + 1 =>
      have hf : (v + 1) / 10 ≤ f := by omega
      have hv' : (v + 1) / 10 ≤ v := by omega
      simp only [encBcdFuel, Nat.add_eq_zero_iff, one_ne_zero, and_false, if_false]
      rw [ih f (by omega) _ hf, ih v (by omega) _ hv']

@[simp] theorem encBcd_zero : encBcd 0 = 0 := rfl

/-- R91: `ENC_BCD(v) = (v mod 10) + 16 * ENC_BCD(v div 10)` (at 0 both sides are 0). -/
theorem encBcd_eq (v : Nat) : encBcd v = v % 10 + 16 * encBcd (v / 10) := by
  match v with
  | 0 => rfl
  | v + 1 =>
    simp only [encBcd]
    rw [encBcdFuel]
    simp only [Nat.add_eq_zero_iff, one_ne_zero, and_false, if_false]
    rw [encBcdFuel_stable v _ (by omega)]

/-- Two decimal digits as one byte (R68). -/
theorem encBcd_lt_hundred {v : Nat} (h : v < 100) : encBcd v = 16 * (v / 10) + v % 10 := by
  rw [encBcd_eq, encBcd_eq, show v / 10 / 10 = 0 by omega, encBcd_zero]
  omega

/-- The byte of two decimal digits (R68). -/
theorem bcdByte_toNat {v : Nat} (h : v < 100) : (bcdByte v).toNat = 16 * (v / 10) + v % 10 := by
  rw [bcdByte, BitVec.toNat_ofNat, encBcd_lt_hundred h]
  omega

/-- A packed byte decoded: ten times the high nibble and the low nibble. -/
theorem decBcd_byte (b : Byte) : decBcd b.toNat = 10 * (b.toNat / 16) + b.toNat % 16 := by
  have hb : b.toNat < 256 := b.isLt
  rw [decBcd_eq, decBcd_eq, show b.toNat / 16 / 16 = 0 by omega, decBcd_zero]
  omega

/-- The five bytes of a frequency (R94). -/
theorem freqEnc_eq (n : Nat) :
    freqEnc n = [bcdByte (n % 100), bcdByte (n / 100 % 100), bcdByte (n / 100 / 100 % 100),
      bcdByte (n / 100 / 100 / 100 % 100), bcdByte (n / 100 / 100 / 100 / 100 % 100)] := by
  simp only [freqEnc, Config.freqBytes, bcdBytes]

/-- A weighted sum of five bytes written out. -/
theorem weighted_five (w4 w3 w2 w1 w0 : Nat) (b4 b3 b2 b1 b0 : Byte) :
    weighted [w4, w3, w2, w1, w0] [b4, b3, b2, b1, b0] =
      decBcd b4.toNat * w4 + (decBcd b3.toNat * w3 + (decBcd b2.toNat * w2 + (decBcd b1.toNat * w1 +
        decBcd b0.toNat * w0))) := by
  simp [weighted]

/-- The weighted sum of R95 written out. -/
theorem freqDec_eq (b : Bytes5) :
    freqDec b = decBcd b.b4.toNat * 100000000 + (decBcd b.b3.toNat * 1000000 + (decBcd b.b2.toNat * 10000 +
      (decBcd b.b1.toNat * 100 + decBcd b.b0.toNat * 1))) := by
  rw [freqDec, Config.freqW, weighted_five]

end Sys2Proof.Machine
end

