-- ==== Sys2Proof/Laws/Operands.lean ====
section
/-! SUPPORT. What each operand function, frame function and verdict function gives, once for all operands, with the
parameters' values written out. -/

namespace Sys2Proof.Machine

/-! ## Operand functions (R70 to R73, R96 to R98) -/

/-- The wire codes of the legal selectors (R72). -/
theorem modeCode_legal : ∀ sel : BitVec 4, sel.toNat ≤ 9 →
    ∃ c, modeCode sel = some c ∧ c.toNat = if sel = 9 then 0x17 else sel.toNat := by
  decide

theorem modeCode_illegal : ∀ sel : BitVec 4, sel.toNat > 9 → modeCode sel = none := by
  decide

/-- The codes 0 to 8 name their own selectors (R96). -/
theorem modeName_low {b : Byte} (h : b.toNat ≤ 8) : modeName b = some (BitVec.ofNat 4 b.toNat) := by
  have hd : decBcd b.toNat = b.toNat := by
    rw [decBcd_byte]
    omega
  simp [modeName, hd, h]

/-- Every byte that is no code of the table has no name (R96). -/
theorem modeName_unknown {b : Byte} (h : b.toNat > 8) (h' : b ≠ 0x17) : modeName b = none := by
  have hne : b.toNat ≠ 0x17 := fun e => h' (BitVec.eq_of_toNat_eq e)
  have hlt := b.isLt
  simp only [modeName, decBcd_byte]
  rw [if_neg (by omega), if_neg (by omega)]

theorem modeName_dv : modeName 0x17 = some 9 := by
  decide

/-- An integer channel is one packed byte (R97). -/
theorem chanBytes_integer {val : Byte} (h : val.toNat ≤ 99) : chanBytes false val = some [bcdByte val.toNat] := if_pos h

theorem chanBytes_integer_illegal {val : Byte} (h : val.toNat > 99) : chanBytes false val = none :=
  if_neg (Nat.not_le.2 h)

theorem chanBytes_special : chanBytes true 0 = some [0x01, 0x00] := rfl

theorem chanBytes_special_illegal {val : Byte} (h : val ≠ 0) : chanBytes true val = none := by
  have hne : val.toNat ≠ 0 := fun e => h (BitVec.eq_of_toNat_eq e)
  simp only [chanBytes, Config.chanSpecial, if_true]
  rw [List.getElem?_eq_none]
  simp only [List.length_singleton]
  omega

/-- A legal bank is its own byte (R98). -/
theorem bankByte_legal {bank : Byte} (h : 1 ≤ bank.toNat ∧ bank.toNat ≤ 5) : bankByte bank = some bank := if_pos h

theorem bankByte_illegal {bank : Byte} (h : ¬ (1 ≤ bank.toNat ∧ bank.toNat ≤ 5)) : bankByte bank = none := if_neg h

/-- The lead-in table (R112). -/
theorem leadinCount_legal {baud : BitVec 3} {k : Nat}
    (h : (baud.toNat, k) ∈ [(0, 2), (1, 3), (2, 17), (3, 13), (4, 25)]) : leadinCount baud = some k ∧ k ≤ 25 := by
  simp only [List.mem_cons, Prod.mk.injEq, List.not_mem_nil, or_false] at h
  rcases h with ⟨h, rfl⟩ | ⟨h, rfl⟩ | ⟨h, rfl⟩ | ⟨h, rfl⟩ | ⟨h, rfl⟩ <;> simp [leadinCount, Config.leadin, h]

theorem leadinCount_illegal : ∀ baud : BitVec 3, baud.toNat > 4 → leadinCount baud = none := by
  decide

/-- The payload of a legal frequency (R69). -/
theorem freqBytes_legal {n : BitVec 30} (h : n.toNat ≤ 999999999) : freqBytes n = some (freqEnc n.toNat) := if_pos h

theorem freqBytes_illegal {n : BitVec 30} (h : n.toNat > 999999999) : freqBytes n = none := if_neg (Nat.not_le.2 h)

/-- A byte of two decimal digits is not the terminator (R77). -/
theorem bcdByte_ne_term {v : Nat} (h : v < 100) : bcdByte v ≠ 0xFD := by
  intro e
  have hv := bcdByte_toNat h
  rw [e] at hv
  change 253 = _ at hv
  omega

/-- No byte of a frequency payload is the terminator (R77). -/
theorem term_not_mem_freqEnc (n : Nat) : (0xFD : Byte) ∉ freqEnc n := by
  rw [freqEnc_eq]
  intro e
  simp only [List.mem_cons, List.not_mem_nil, or_false] at e
  rcases e with e | e | e | e | e <;> exact bcdByte_ne_term (by omega) e.symm

/-! ## Frames (R110, R113) -/

/-- The frame of BUILD's operands, byte for byte. -/
theorem frameFor_bytes (s : State) (cmd : Byte) (hasSub : Bool) (sub : Byte) (d : List Byte) :
    s.frameFor cmd (buildSub hasSub sub) d =
      [0xFE, 0xFE, 0x88, 0xE0, cmd] ++ (if hasSub then [sub] else []) ++ d ++ [0xFD] := by
  cases hasSub <;> rfl

/-- When BUILD's operands make a well-formed frame (R113). -/
theorem frameWellformed_iff (s : State) (cmd : Byte) (hasSub : Bool) (sub : Byte) (d : List Byte) :
    frameWellformed s.cfgDst s.cfgSrc cmd (buildSub hasSub sub) d = true ↔
      ¬ (cmd = 0xFD ∨ (hasSub = true ∧ sub = 0xFD) ∨ (0xFD : Byte) ∈ d) := by
  simp only [frameWellformed, State.cfgDst, State.cfgSrc, Config.dstAddr, Config.srcAddr, Config.term, List.all_eq_true,
    bne_iff_ne]
  cases hasSub <;> simp [buildSub, subBytes] <;> aesop

/-- BUILD of legal operands stores the frame (R111). -/
theorem buildFrame_legal {s : State} {cmd : Byte} {hasSub : Bool} {sub : Byte} {dlen : BitVec 6} {data : List Byte}
    (hl : dlen.toNat ≤ 32) (hc : cmd ≠ 0xFD) (hs : ¬ (hasSub = true ∧ sub = 0xFD))
    (hd : (0xFD : Byte) ∉ data.take dlen.toNat) :
    s.buildFrame cmd (buildSub hasSub sub) dlen data =
      State.complete (s.loadTx ([0xFE, 0xFE, 0x88, 0xE0, cmd] ++ (if hasSub then [sub] else []) ++
        data.take dlen.toNat ++ [0xFD])) := by
  unfold State.buildFrame
  rw [if_neg (show ¬ dlen.toNat > Config.dataMax from Nat.not_lt.2 hl),
    if_pos ((frameWellformed_iff _ _ _ _ _).2 (by tauto)), frameFor_bytes]

/-- BUILD of illegal operands is refused (R111). -/
theorem buildFrame_illegal {s : State} {cmd : Byte} {hasSub : Bool} {sub : Byte} {dlen : BitVec 6} {data : List Byte}
    (h : dlen.toNat > 32 ∨ cmd = 0xFD ∨ (hasSub = true ∧ sub = 0xFD) ∨ (0xFD : Byte) ∈ data.take dlen.toNat) :
    s.buildFrame cmd (buildSub hasSub sub) dlen data = s.raise .unsupportedValue := by
  unfold State.buildFrame
  split
  · rfl
  · rename_i hl
    rw [if_neg]
    intro hw
    rw [frameWellformed_iff] at hw
    rcases h with h | h
    · exact hl h
    · exact hw h

/-! ## Verdicts (R127, R179) -/

/-- The classification of a complete response, by its bytes before the terminator (R127). -/
theorem classify_data {r : List Byte} (h : r.length ≠ 5) : classify (r ++ [0xFD]) = .data := by
  simp [classify, Config.statusLen, h]

theorem classify_status {r : List Byte} (h : r.length = 5) :
    classify (r ++ [0xFD]) =
      if r[4]? = some 0xFB then .ok else if r[4]? = some 0xFA then .rejected else .anomalous := by
  have hi : (r ++ [0xFD])[4]? = r[4]? := List.getElem?_append_left (by omega)
  have hl : (r ++ [0xFD]).length = Config.statusLen := by simp [h, Config.statusLen]
  rw [classify, if_pos hl]
  simp only [Config.statusIdx, hi]
  rfl

@[simp] theorem finalErr_malformed (o : TxnOutcome) (em : Bool) :
    finalErr o em .malformed = (.malformedResponse, .rxReply) := rfl

@[simp] theorem finalErr_anomalous (em : Bool) (v : Verdict) :
    finalErr .anomalous em v = (.malformedResponse, .rxReply) := by
  cases v <;> rfl

@[simp] theorem finalErr_rejected (em : Bool) : finalErr .rejected em .fine = (.rejected, .rxReply) := rfl

@[simp] theorem finalErr_ok (em : Bool) :
    finalErr .ok em .fine = if em then (.echoMismatch, .rxEcho) else (.noError, .idle) := rfl

@[simp] theorem finalErr_data (em : Bool) :
    finalErr .data em .fine = if em then (.echoMismatch, .rxEcho) else (.noError, .idle) := rfl

end Sys2Proof.Machine
end

