-- ==== Sys2Proof/Laws/State.lean ====
section
/-! SUPPORT. One lemma per field per update of the state, so that no proof unfolds a record update. -/

namespace Sys2Proof.Machine

/-! ## Buffers -/

@[simp] theorem Memory.setTx_txbuf (m : Memory) (f : List Byte) : (m.setTx f).txbuf = f := rfl
@[simp] theorem Memory.setTx_rxbuf (m : Memory) (f : List Byte) : (m.setTx f).rxbuf = m.rxbuf := rfl
@[simp] theorem Memory.pushRx_txbuf (m : Memory) (b : Byte) : (m.pushRx b).txbuf = m.txbuf := rfl
@[simp] theorem Memory.pushRx_rxbuf (m : Memory) (b : Byte) : (m.pushRx b).rxbuf = m.rxbuf ++ [b] := rfl
@[simp] theorem Memory.clearRx_txbuf (m : Memory) : m.clearRx.txbuf = m.txbuf := rfl
@[simp] theorem Memory.clearRx_rxbuf (m : Memory) : m.clearRx.rxbuf = [] := rfl
@[simp] theorem State.cfgDst_eq (s : State) : s.cfgDst = Config.dstAddr := rfl
@[simp] theorem State.cfgSrc_eq (s : State) : s.cfgSrc = Config.srcAddr := rfl

/-! ## State.accept: acceptance (R25) -/

@[simp] theorem State.accept_latch (i : Instr) (s : State) : (s.accept i).latch = i.drive s.latch := rfl
@[simp] theorem State.accept_results (i : Instr) (s : State) : (s.accept i).results = Results.zero := rfl
@[simp] theorem State.accept_mem (i : Instr) (s : State) : (s.accept i).mem = s.mem := rfl
@[simp] theorem State.accept_txi (i : Instr) (s : State) : (s.accept i).txi = s.txi := rfl
@[simp] theorem State.accept_echolen (i : Instr) (s : State) : (s.accept i).echolen = s.echolen := rfl
@[simp] theorem State.accept_phase (i : Instr) (s : State) : (s.accept i).phase = s.phase := rfl
@[simp] theorem State.accept_status (i : Instr) (s : State) : (s.accept i).status = Status.accepted := rfl
@[simp] theorem State.accept_port (i : Instr) (s : State) : (s.accept i).port = s.port := rfl
@[simp] theorem State.accept_env (i : Instr) (s : State) : (s.accept i).env = s.env := rfl
@[simp] theorem State.accept_trace (i : Instr) (s : State) : (s.accept i).trace = [] := rfl

/-! ## State.complete: completion (R25) -/

@[simp] theorem State.complete_latch (s : State) : (s.complete).latch = s.latch := rfl
@[simp] theorem State.complete_results (s : State) : (s.complete).results = s.results := rfl
@[simp] theorem State.complete_mem (s : State) : (s.complete).mem = s.mem := rfl
@[simp] theorem State.complete_txi (s : State) : (s.complete).txi = s.txi := rfl
@[simp] theorem State.complete_echolen (s : State) : (s.complete).echolen = s.echolen := rfl
@[simp] theorem State.complete_phase (s : State) : (s.complete).phase = .idle := rfl
@[simp] theorem State.complete_status (s : State) :
    (s.complete).status = { s.status with busy := false, done := true } := rfl
@[simp] theorem State.complete_port (s : State) : (s.complete).port = s.port := rfl
@[simp] theorem State.complete_env (s : State) : (s.complete).env = s.env := rfl
@[simp] theorem State.complete_trace (s : State) : (s.complete).trace = s.trace := rfl

/-! ## State.raise: an error (R181) -/

@[simp] theorem State.raise_latch (e : ErrCode) (s : State) : (s.raise e).latch = s.latch := rfl
@[simp] theorem State.raise_results (e : ErrCode) (s : State) : (s.raise e).results = s.results := rfl
@[simp] theorem State.raise_mem (e : ErrCode) (s : State) : (s.raise e).mem = s.mem := rfl
@[simp] theorem State.raise_txi (e : ErrCode) (s : State) : (s.raise e).txi = s.txi := rfl
@[simp] theorem State.raise_echolen (e : ErrCode) (s : State) : (s.raise e).echolen = s.echolen := rfl
@[simp] theorem State.raise_phase (e : ErrCode) (s : State) : (s.raise e).phase = .idle := rfl
@[simp] theorem State.raise_status (e : ErrCode) (s : State) :
    (s.raise e).status = { s.status with err := e, errph := s.phase, busy := false, done := true } := rfl
@[simp] theorem State.raise_port (e : ErrCode) (s : State) : (s.raise e).port = s.port := rfl
@[simp] theorem State.raise_env (e : ErrCode) (s : State) : (s.raise e).env = s.env := rfl
@[simp] theorem State.raise_trace (e : ErrCode) (s : State) : (s.raise e).trace = s.trace := rfl

/-! ## State.log: an event of the trace (R133) -/

@[simp] theorem State.log_latch (ev : Event) (s : State) : (s.log ev).latch = s.latch := rfl
@[simp] theorem State.log_results (ev : Event) (s : State) : (s.log ev).results = s.results := rfl
@[simp] theorem State.log_mem (ev : Event) (s : State) : (s.log ev).mem = s.mem := rfl
@[simp] theorem State.log_txi (ev : Event) (s : State) : (s.log ev).txi = s.txi := rfl
@[simp] theorem State.log_echolen (ev : Event) (s : State) : (s.log ev).echolen = s.echolen := rfl
@[simp] theorem State.log_phase (ev : Event) (s : State) : (s.log ev).phase = s.phase := rfl
@[simp] theorem State.log_status (ev : Event) (s : State) : (s.log ev).status = s.status := rfl
@[simp] theorem State.log_port (ev : Event) (s : State) : (s.log ev).port = s.port := rfl
@[simp] theorem State.log_env (ev : Event) (s : State) : (s.log ev).env = s.env := rfl
@[simp] theorem State.log_trace (ev : Event) (s : State) : (s.log ev).trace = s.trace ++ [ev] := rfl

/-! ## State.loadTx: the write of `TXBUF` (R111) -/

@[simp] theorem State.loadTx_latch (f : List Byte) (s : State) : (s.loadTx f).latch = s.latch := rfl
@[simp] theorem State.loadTx_results (f : List Byte) (s : State) : (s.loadTx f).results = s.results := rfl
@[simp] theorem State.loadTx_mem (f : List Byte) (s : State) : (s.loadTx f).mem = s.mem.setTx f := rfl
@[simp] theorem State.loadTx_txi (f : List Byte) (s : State) : (s.loadTx f).txi = s.txi := rfl
@[simp] theorem State.loadTx_echolen (f : List Byte) (s : State) : (s.loadTx f).echolen = s.echolen := rfl
@[simp] theorem State.loadTx_phase (f : List Byte) (s : State) : (s.loadTx f).phase = s.phase := rfl
@[simp] theorem State.loadTx_status (f : List Byte) (s : State) : (s.loadTx f).status = s.status := rfl
@[simp] theorem State.loadTx_port (f : List Byte) (s : State) : (s.loadTx f).port = s.port := rfl
@[simp] theorem State.loadTx_env (f : List Byte) (s : State) : (s.loadTx f).env = s.env := rfl
@[simp] theorem State.loadTx_trace (f : List Byte) (s : State) : (s.loadTx f).trace = s.trace := rfl

/-! ## State.startTxn: the entry into TX (R121) -/

@[simp] theorem State.startTxn_latch (s : State) : (s.startTxn).latch = s.latch := rfl
@[simp] theorem State.startTxn_results (s : State) : (s.startTxn).results = s.results := rfl
@[simp] theorem State.startTxn_mem (s : State) : (s.startTxn).mem = s.mem.clearRx := rfl
@[simp] theorem State.startTxn_txi (s : State) : (s.startTxn).txi = 0 := rfl
@[simp] theorem State.startTxn_echolen (s : State) : (s.startTxn).echolen = 0 := rfl
@[simp] theorem State.startTxn_phase (s : State) : (s.startTxn).phase = .tx := rfl
@[simp] theorem State.startTxn_status (s : State) : (s.startTxn).status = s.status := rfl
@[simp] theorem State.startTxn_port (s : State) : (s.startTxn).port = s.port := rfl
@[simp] theorem State.startTxn_env (s : State) : (s.startTxn).env = s.env := rfl
@[simp] theorem State.startTxn_trace (s : State) : (s.startTxn).trace = s.trace := rfl

/-! ## State.completeValue: a numeric result -/

@[simp] theorem State.completeValue_latch (v : Nat) (s : State) : (s.completeValue v).latch = s.latch := rfl
@[simp] theorem State.completeValue_results (v : Nat) (s : State) :
    (s.completeValue v).results = { s.results with value := BitVec.ofNat 34 v } := rfl
@[simp] theorem State.completeValue_mem (v : Nat) (s : State) : (s.completeValue v).mem = s.mem := rfl
@[simp] theorem State.completeValue_txi (v : Nat) (s : State) : (s.completeValue v).txi = s.txi := rfl
@[simp] theorem State.completeValue_echolen (v : Nat) (s : State) : (s.completeValue v).echolen = s.echolen := rfl
@[simp] theorem State.completeValue_phase (v : Nat) (s : State) : (s.completeValue v).phase = .idle := rfl
@[simp] theorem State.completeValue_status (v : Nat) (s : State) :
    (s.completeValue v).status = { s.status with busy := false, done := true } := rfl
@[simp] theorem State.completeValue_port (v : Nat) (s : State) : (s.completeValue v).port = s.port := rfl
@[simp] theorem State.completeValue_env (v : Nat) (s : State) : (s.completeValue v).env = s.env := rfl
@[simp] theorem State.completeValue_trace (v : Nat) (s : State) : (s.completeValue v).trace = s.trace := rfl

/-! ## State.completeBytes: a byte-sequence result -/

@[simp] theorem State.completeBytes_latch (bs : List Byte) (s : State) : (s.completeBytes bs).latch = s.latch := rfl
@[simp] theorem State.completeBytes_results (bs : List Byte) (s : State) :
    (s.completeBytes bs).results = { s.results with bytes := bytes5Of bs, blen := BitVec.ofNat 3 bs.length } := rfl
@[simp] theorem State.completeBytes_mem (bs : List Byte) (s : State) : (s.completeBytes bs).mem = s.mem := rfl
@[simp] theorem State.completeBytes_txi (bs : List Byte) (s : State) : (s.completeBytes bs).txi = s.txi := rfl
@[simp] theorem State.completeBytes_echolen (bs : List Byte) (s : State) :
    (s.completeBytes bs).echolen = s.echolen := rfl
@[simp] theorem State.completeBytes_phase (bs : List Byte) (s : State) : (s.completeBytes bs).phase = .idle := rfl
@[simp] theorem State.completeBytes_status (bs : List Byte) (s : State) :
    (s.completeBytes bs).status = { s.status with busy := false, done := true } := rfl
@[simp] theorem State.completeBytes_port (bs : List Byte) (s : State) : (s.completeBytes bs).port = s.port := rfl
@[simp] theorem State.completeBytes_env (bs : List Byte) (s : State) : (s.completeBytes bs).env = s.env := rfl
@[simp] theorem State.completeBytes_trace (bs : List Byte) (s : State) : (s.completeBytes bs).trace = s.trace := rfl

/-! ## State.txAdvance: a byte taken (R122) -/

@[simp] theorem State.txAdvance_latch (s : State) : (s.txAdvance).latch = s.latch := rfl
@[simp] theorem State.txAdvance_results (s : State) : (s.txAdvance).results = s.results := rfl
@[simp] theorem State.txAdvance_mem (s : State) : (s.txAdvance).mem = s.mem := rfl
@[simp] theorem State.txAdvance_txi (s : State) : (s.txAdvance).txi = s.txi + 1 := rfl
@[simp] theorem State.txAdvance_echolen (s : State) : (s.txAdvance).echolen = s.echolen := rfl
@[simp] theorem State.txAdvance_phase (s : State) :
    (s.txAdvance).phase = if s.txi.toNat + 1 = s.mem.txbuf.length then .rxEcho else .tx := rfl
@[simp] theorem State.txAdvance_status (s : State) : (s.txAdvance).status = s.status := rfl
@[simp] theorem State.txAdvance_port (s : State) : (s.txAdvance).port = s.port := rfl
@[simp] theorem State.txAdvance_env (s : State) : (s.txAdvance).env = s.env := rfl
@[simp] theorem State.txAdvance_trace (s : State) : (s.txAdvance).trace = s.trace := rfl

/-! ## State.echoCompletion: echo completion (R125) -/

@[simp] theorem State.echoCompletion_latch (s : State) : (s.echoCompletion).latch = s.latch := rfl
@[simp] theorem State.echoCompletion_results (s : State) : (s.echoCompletion).results = s.results := rfl
@[simp] theorem State.echoCompletion_mem (s : State) : (s.echoCompletion).mem = s.mem.clearRx := rfl
@[simp] theorem State.echoCompletion_txi (s : State) : (s.echoCompletion).txi = s.txi := rfl
@[simp] theorem State.echoCompletion_echolen (s : State) : (s.echoCompletion).echolen = s.rxlen := rfl
@[simp] theorem State.echoCompletion_phase (s : State) : (s.echoCompletion).phase = .rxReply := rfl
@[simp] theorem State.echoCompletion_status (s : State) :
    (s.echoCompletion).status = { s.status with em := !echoEqual s.mem.rxbuf s.mem.txbuf } := rfl
@[simp] theorem State.echoCompletion_port (s : State) : (s.echoCompletion).port = s.port := rfl
@[simp] theorem State.echoCompletion_env (s : State) : (s.echoCompletion).env = s.env := rfl
@[simp] theorem State.echoCompletion_trace (s : State) : (s.echoCompletion).trace = s.trace := rfl

/-! ## State.command: build and entry into TX (R150) -/

@[simp] theorem State.command_latch (k : Nat) (cmd : Byte) (sub : Option Byte) (data : List Byte) (s : State) :
    (s.command k cmd sub data).latch = s.latch := rfl
@[simp] theorem State.command_results (k : Nat) (cmd : Byte) (sub : Option Byte) (data : List Byte) (s : State) :
    (s.command k cmd sub data).results = s.results := rfl
@[simp] theorem State.command_mem (k : Nat) (cmd : Byte) (sub : Option Byte) (data : List Byte) (s : State) :
    (s.command k cmd sub data).mem = { txbuf := withLeadin k (s.frameFor cmd sub data), rxbuf := [] } := rfl
@[simp] theorem State.command_txi (k : Nat) (cmd : Byte) (sub : Option Byte) (data : List Byte) (s : State) :
    (s.command k cmd sub data).txi = 0 := rfl
@[simp] theorem State.command_echolen (k : Nat) (cmd : Byte) (sub : Option Byte) (data : List Byte) (s : State) :
    (s.command k cmd sub data).echolen = 0 := rfl
@[simp] theorem State.command_phase (k : Nat) (cmd : Byte) (sub : Option Byte) (data : List Byte) (s : State) :
    (s.command k cmd sub data).phase = .tx := rfl
@[simp] theorem State.command_status (k : Nat) (cmd : Byte) (sub : Option Byte) (data : List Byte) (s : State) :
    (s.command k cmd sub data).status = s.status := rfl
@[simp] theorem State.command_port (k : Nat) (cmd : Byte) (sub : Option Byte) (data : List Byte) (s : State) :
    (s.command k cmd sub data).port = s.port := rfl
@[simp] theorem State.command_env (k : Nat) (cmd : Byte) (sub : Option Byte) (data : List Byte) (s : State) :
    (s.command k cmd sub data).env = s.env := rfl
@[simp] theorem State.command_trace (k : Nat) (cmd : Byte) (sub : Option Byte) (data : List Byte) (s : State) :
    (s.command k cmd sub data).trace = s.trace := rfl

/-! ## State.refuseReserved: a reserved `OPID` (R78) -/

@[simp] theorem State.refuseReserved_latch (s : State) : (s.refuseReserved).latch = s.latch := rfl
@[simp] theorem State.refuseReserved_results (s : State) : (s.refuseReserved).results = Results.zero := rfl
@[simp] theorem State.refuseReserved_mem (s : State) : (s.refuseReserved).mem = s.mem := rfl
@[simp] theorem State.refuseReserved_txi (s : State) : (s.refuseReserved).txi = s.txi := rfl
@[simp] theorem State.refuseReserved_echolen (s : State) : (s.refuseReserved).echolen = s.echolen := rfl
@[simp] theorem State.refuseReserved_phase (s : State) : (s.refuseReserved).phase = .idle := rfl
@[simp] theorem State.refuseReserved_status (s : State) :
    (s.refuseReserved).status = { busy := false, done := true, em := false, outcome := .noOutcome, err := .unsupportedValue, errph := s.phase } := rfl
@[simp] theorem State.refuseReserved_port (s : State) : (s.refuseReserved).port = s.port := rfl
@[simp] theorem State.refuseReserved_env (s : State) : (s.refuseReserved).env = s.env := rfl
@[simp] theorem State.refuseReserved_trace (s : State) : (s.refuseReserved).trace = [] := rfl

/-! ## State.assertReset: reset (R203) -/

@[simp] theorem State.assertReset_latch (s : State) : (s.assertReset).latch = Request.zero := rfl
@[simp] theorem State.assertReset_results (s : State) : (s.assertReset).results = Results.zero := rfl
@[simp] theorem State.assertReset_mem (s : State) : (s.assertReset).mem = { txbuf := [], rxbuf := [] } := rfl
@[simp] theorem State.assertReset_txi (s : State) : (s.assertReset).txi = 0 := rfl
@[simp] theorem State.assertReset_echolen (s : State) : (s.assertReset).echolen = 0 := rfl
@[simp] theorem State.assertReset_phase (s : State) : (s.assertReset).phase = .idle := rfl
@[simp] theorem State.assertReset_status (s : State) : (s.assertReset).status = Status.zero := rfl
@[simp] theorem State.assertReset_port (s : State) : (s.assertReset).port = s.port := rfl
@[simp] theorem State.assertReset_env (s : State) : (s.assertReset).env = s.env := rfl
@[simp] theorem State.assertReset_trace (s : State) : (s.assertReset).trace = [] := rfl

end Sys2Proof.Machine
end

