-- ==== Sys2Proof/Laws/Ops.lean ====
section
/-! SUPPORT. For each shared operation, once, everything it can do: the provers cite these instead of unfolding. -/

namespace Sys2Proof.Machine

/-! ## Memory -/

/-- What the canonical form says (R52). -/
theorem Memory.wf_iff (m : Memory) : m.wf = true ↔ m.txbuf.length ≤ 64 ∧ m.rxbuf.length ≤ 64 := by
  simp only [Memory.wf, Bool.and_eq_true, decide_eq_true_eq]
  exact Iff.rfl

/-- Writing a frame that fits keeps the buffers within their capacities. -/
theorem Memory.setTx_wf {m : Memory} {f : List Byte} (h : m.wf = true) (hf : f.length ≤ Config.txMax) :
    (m.setTx f).wf = true := by
  simp_all [Memory.wf]

/-- Storing a byte below the capacity keeps the buffers within their capacities. -/
theorem Memory.pushRx_wf {m : Memory} {b : Byte} (h : m.wf = true) (hr : m.rxbuf.length < Config.rxMax) :
    (m.pushRx b).wf = true := by
  simp_all [Memory.wf]

/-- Emptying `RXBUF` keeps the buffers within their capacities. -/
theorem Memory.clearRx_wf {m : Memory} (h : m.wf = true) : m.clearRx.wf = true := by
  simp_all [Memory.wf]

/-- The buffers are within their capacities after reset. -/
theorem reset_mem_wf : State.reset.mem.wf = true := by decide

/-- Two buffers of which every byte reads the same are the same. -/
theorem sameBuffers_refl {s t : State} (h : t.mem = s.mem) : SameBuffers s t := by
  simp [SameBuffers, State.txlen, State.rxlen, h]

/-! ## Acceptance -/

theorem acceptable_iff (s : State) : s.acceptable = true ↔ s.Ready := by
  simp [State.acceptable, State.Ready]

/-- An operation is performed where a request can be accepted (R25). -/
theorem onAccept_ready {s : State} (h : s.Ready) (i : Instr) (body : State → State) :
    s.onAccept i body = .next (body (s.accept i)) := by
  simp [State.onAccept, (acceptable_iff s).2 h]

/-- It is held everywhere else (R120). -/
theorem onAccept_held {s : State} (h : ¬ s.Ready) (i : Instr) (body : State → State) : s.onAccept i body = .next s := by
  simp only [← acceptable_iff] at h
  simp [State.onAccept, h]

/-- If acceptance answers a next state, the operation was performed or held. -/
theorem onAccept_cases {s t : State} {i : Instr} {body : State → State} (h : s.onAccept i body = .next t) :
    (s.Ready ∧ t = body (s.accept i)) ∨ (¬ s.Ready ∧ t = s) := by
  by_cases hr : s.Ready
  · rw [onAccept_ready hr] at h
    exact .inl ⟨hr, by cases h; rfl⟩
  · rw [onAccept_held hr] at h
    exact .inr ⟨hr, by cases h; rfl⟩

@[simp] theorem refuseUnless_some {α : Type} (a : α) (body : α → State → State) (s : State) :
    State.refuseUnless (some a) body s = body a s := rfl

@[simp] theorem refuseUnless_none {α : Type} (body : α → State → State) (s : State) :
    State.refuseUnless (none : Option α) body s = s.raise .unsupportedValue := rfl

/-- The acceptance of a request in the state its record was latched in leaves that record. -/
theorem accept_ready {s : State} (h : s.Ready) (i : Instr) : (s.accept i).phase = .idle := by
  simp [h.1]

/-! ## Stream primitives -/

/-- A scripted answer to a write (R46). -/
theorem txWrite_answered {s : State} {a : TxAnswer} {rest : List (Option TxAnswer)} (h : s.env.tx = some a :: rest)
    (b : Byte) :
    s.txWrite b = (some a, { s with env := { s.env with tx := rest }, trace := s.trace ++ [.wrote b a] }) := by
  simp [State.txWrite, Env.nextTx, h, State.log]

/-- No answer to a write in this moment. -/
theorem txWrite_silent {s : State} {rest : List (Option TxAnswer)} (h : s.env.tx = none :: rest) (b : Byte) :
    s.txWrite b = (none, { s with env := { s.env with tx := rest } }) := by
  simp [State.txWrite, Env.nextTx, h]

/-- A write is answered, and then logged, or not answered; nothing else of the state changes but the environment. -/
theorem txWrite_cases (s : State) (b : Byte) :
    (∃ a e, s.txWrite b = (some a, { s with env := e, trace := s.trace ++ [.wrote b a] })) ∨
    (∃ e, s.txWrite b = (none, { s with env := e })) := by
  simp only [State.txWrite]
  rcases s.env.nextTx with ⟨_ | a, e⟩
  · exact .inr ⟨e, rfl⟩
  · exact .inl ⟨a, e, rfl⟩

/-- A scripted answer to a read (R47). -/
theorem rxRead_answered {s : State} {a : RxAnswer} {rest : List (Option RxAnswer)} (h : s.env.rx = some a :: rest) :
    s.rxRead = (some a, { s with env := { s.env with rx := rest }, trace := s.trace ++ [.got a] }) := by
  simp [State.rxRead, Env.nextRx, h, State.log]

/-- No answer to a read in this moment. -/
theorem rxRead_silent {s : State} {rest : List (Option RxAnswer)} (h : s.env.rx = none :: rest) :
    s.rxRead = (none, { s with env := { s.env with rx := rest } }) := by
  simp [State.rxRead, Env.nextRx, h]

/-- A read is answered, and then logged, or not answered; nothing else of the state changes but the environment. -/
theorem rxRead_cases (s : State) :
    (∃ a e, s.rxRead = (some a, { s with env := e, trace := s.trace ++ [.got a] })) ∨
    (∃ e, s.rxRead = (none, { s with env := e })) := by
  simp only [State.rxRead]
  rcases s.env.nextRx with ⟨_ | a, e⟩
  · exact .inr ⟨e, rfl⟩
  · exact .inl ⟨a, e, rfl⟩

/-! ## Steps -/

/-- One step of TX where the byte is taken (R122). -/
theorem txStep_ok {s : State} {b : Byte} {rest : List (Option TxAnswer)} (hb : s.mem.txAt s.txi.toNat = some b)
    (h : s.env.tx = some .ok :: rest) :
    txStep s = .next
      (State.txAdvance { s with env := { s.env with tx := rest }, trace := s.trace ++ [Event.wrote b .ok] }) := by
  simp only [txStep, hb, txWrite_answered h]

/-- One step of TX where the write fails (R122). -/
theorem txStep_fail {s : State} {b : Byte} {rest : List (Option TxAnswer)} (hb : s.mem.txAt s.txi.toNat = some b)
    (h : s.env.tx = some .fail :: rest) :
    txStep s = .next (State.raise .transportUnavailable
      { s with env := { s.env with tx := rest }, trace := s.trace ++ [Event.wrote b .fail] }) := by
  simp only [txStep, hb, txWrite_answered h]

/-- One step of TX in a moment without an answer (R132). -/
theorem txStep_silent {s : State} {b : Byte} {rest : List (Option TxAnswer)} (hb : s.mem.txAt s.txi.toNat = some b)
    (h : s.env.tx = none :: rest) : txStep s = .next { s with env := { s.env with tx := rest } } := by
  simp only [txStep, hb, txWrite_silent h]

/-- If a step of TX answers a next state, one of R122's cases holds, or the environment gave no answer. -/
theorem txStep_cases {s t : State} (h : txStep s = .next t) :
    ∃ b e, s.mem.txAt s.txi.toNat = some b ∧
      (t = { s with env := e } ∨
       t = State.txAdvance { s with env := e, trace := s.trace ++ [.wrote b .ok] } ∨
       t = State.raise .transportUnavailable { s with env := e, trace := s.trace ++ [.wrote b .fail] }) := by
  simp only [txStep] at h
  split at h
  · cases h
  · rename_i b hb
    rcases txWrite_cases s b with ⟨_ | _, e, hw⟩ | ⟨e, hw⟩ <;> rw [hw] at h <;> cases h
    · exact ⟨b, e, hb, .inr (.inl rfl)⟩
    · exact ⟨b, e, hb, .inr (.inr rfl)⟩
    · exact ⟨b, e, hb, .inl rfl⟩

/-- One step of a read phase by the answer (R124). -/
theorem rxStep_answered {s : State} {a : RxAnswer} {rest : List (Option RxAnswer)}
    (hl : s.mem.rxbuf.length < Config.rxMax) (h : s.env.rx = some a :: rest) :
    rxStep s = .next (State.afterRead a { s with env := { s.env with rx := rest }, trace := s.trace ++ [.got a] }) := by
  simp only [rxStep, hl, if_true, rxRead_answered h]

/-- One step of a read phase in a moment without an answer (R132). -/
theorem rxStep_silent {s : State} {rest : List (Option RxAnswer)} (hl : s.mem.rxbuf.length < Config.rxMax)
    (h : s.env.rx = none :: rest) : rxStep s = .next { s with env := { s.env with rx := rest } } := by
  simp only [rxStep, hl, if_true, rxRead_silent h]

/-- If a step of a read phase answers a next state, the answer was taken as R124 says, or there was none. -/
theorem rxStep_cases {s t : State} (h : rxStep s = .next t) :
    s.mem.rxbuf.length < Config.rxMax ∧
      ∃ e, t = { s with env := e } ∨ ∃ a, t = State.afterRead a { s with env := e, trace := s.trace ++ [.got a] } := by
  simp only [rxStep] at h
  split at h
  · rename_i hl
    refine ⟨hl, ?_⟩
    rcases rxRead_cases s with ⟨a, e, hw⟩ | ⟨e, hw⟩ <;> rw [hw] at h <;> cases h
    · exact ⟨e, .inr ⟨a, rfl⟩⟩
    · exact ⟨e, .inl rfl⟩
  · cases h

/-- The terminator in RX_ECHO (R125). -/
theorem rxByte_echo {s : State} (h : s.phase = .rxEcho) :
    s.rxByte Config.term = State.echoCompletion { s with mem := s.mem.pushRx Config.term } := by
  simp [State.rxByte, h]

/-- The terminator in RX_REPLY (R126). -/
theorem rxByte_reply {s : State} (h : s.phase = .rxReply) :
    s.rxByte Config.term = State.replyCompletion { s with mem := s.mem.pushRx Config.term } := by
  simp [State.rxByte, h]

/-- Any other byte (R124): stored, and the end of the operation where it fills the buffer. -/
theorem rxByte_other {s : State} {b : Byte} (h : b ≠ Config.term) :
    s.rxByte b =
      if s.mem.rxbuf.length + 1 = Config.rxMax then
        State.raise .malformedResponse { s with mem := s.mem.pushRx b }
      else { s with mem := s.mem.pushRx b } := by
  simp [State.rxByte, h]

/-- A byte that is not the terminator and leaves room is stored, and nothing else happens (R124). -/
theorem rxByte_stored {s : State} {b : Byte} (h : b ≠ Config.term) (hl : s.mem.rxbuf.length + 1 ≠ 64) :
    s.rxByte b = { s with mem := s.mem.pushRx b } := by
  rw [rxByte_other h]
  exact if_neg hl

/-- A byte that is not the terminator and fills the buffer ends the operation (R124). -/
theorem rxByte_full {s : State} {b : Byte} (h : b ≠ Config.term) (hl : s.mem.rxbuf.length + 1 = 64) :
    s.rxByte b = State.raise .malformedResponse { s with mem := s.mem.pushRx b } := by
  rw [rxByte_other h]
  exact if_pos hl

/-- If a step answers a next state: in IDLE it waited, ran the decoded request, or refused a reserved one; in the other
phases it made a step of the engine. -/
theorem step_cases {s t : State} (h : step s = .next t) :
    (s.Ready ∧ s.port = [] ∧ t = s) ∨
    (∃ r rest i, s.Ready ∧ s.port = r :: rest ∧ decode r = .ok i ∧
      exec i { s with port := rest, latch := r } = .next t) ∨
    (∃ r rest e, s.Ready ∧ s.port = r :: rest ∧ decode r = .error e ∧
      t = State.refuseReserved { s with port := rest, latch := r }) ∨
    (s.phase = .tx ∧ txStep s = .next t) ∨
    ((s.phase = .rxEcho ∨ s.phase = .rxReply) ∧ rxStep s = .next t) := by
  simp only [step] at h
  split at h
  · rename_i hp
    split at h
    · cases h
    · rename_i hb
      have hr : s.Ready := ⟨hp, by simpa using hb⟩
      simp only [State.fetch] at h
      cases hport : s.port with
      | nil =>
        rw [hport] at h
        cases h
        exact .inl ⟨hr, rfl, rfl⟩
      | cons r rest =>
        rw [hport] at h
        simp only at h
        split at h
        · rename_i i hd
          exact .inr (.inl ⟨r, rest, i, hr, rfl, hd, h⟩)
        · rename_i e hd
          cases h
          exact .inr (.inr (.inl ⟨r, rest, e, hr, rfl, hd, rfl⟩))
  · rename_i hp
    exact .inr (.inr (.inr (.inl ⟨hp, h⟩)))
  · rename_i hp
    exact .inr (.inr (.inr (.inr ⟨.inl hp, h⟩)))
  · rename_i hp
    exact .inr (.inr (.inr (.inr ⟨.inr hp, h⟩)))

end Sys2Proof.Machine
end

