-- ==== Sys2Proof/Laws/PerInstr.lean ====
section
/-! SUPPORT. The statements made of every operation, one lemma per constructor of `Instr` (LAWS.json). -/

namespace Sys2Proof.Laws

/-- The record of an operation decodes to the operation. -/
def DecodeEncode.Statement (i : Instr) : Prop := decode (encode i) = .ok i

theorem DecodeEncode.bcdDec (x : BitVec 20) : DecodeEncode.Statement (.bcdDec x) := rfl
theorem DecodeEncode.bcdEnc (v : BitVec 16) : DecodeEncode.Statement (.bcdEnc v) := rfl
theorem DecodeEncode.freqEnc (n : BitVec 30) : DecodeEncode.Statement (.freqEnc n) := rfl
theorem DecodeEncode.freqDec (b : Bytes5) : DecodeEncode.Statement (.freqDec b) := rfl
theorem DecodeEncode.modeEnc (sel : BitVec 4) : DecodeEncode.Statement (.modeEnc sel) := rfl
theorem DecodeEncode.modeDec (b0 : Byte) : DecodeEncode.Statement (.modeDec b0) := rfl
theorem DecodeEncode.chanEnc (special : Bool) (val : Byte) : DecodeEncode.Statement (.chanEnc special val) := rfl
theorem DecodeEncode.bankEnc (bank : Byte) : DecodeEncode.Statement (.bankEnc bank) := rfl
theorem DecodeEncode.build (cmd : Byte) (hasSub : Bool) (sub : Byte) (dlen : BitVec 6) (data : List Byte) :
    DecodeEncode.Statement (.build cmd hasSub sub dlen data) := rfl
theorem DecodeEncode.buildPwron (baud : BitVec 3) : DecodeEncode.Statement (.buildPwron baud) := rfl
theorem DecodeEncode.execute : DecodeEncode.Statement .execute := rfl
theorem DecodeEncode.pwrOff : DecodeEncode.Statement .pwrOff := rfl
theorem DecodeEncode.pwrOn (baud : BitVec 3) : DecodeEncode.Statement (.pwrOn baud) := rfl
theorem DecodeEncode.vfoA : DecodeEncode.Statement .vfoA := rfl
theorem DecodeEncode.vfoB : DecodeEncode.Statement .vfoB := rfl
theorem DecodeEncode.memMode : DecodeEncode.Statement .memMode := rfl
theorem DecodeEncode.memBank (bank : Byte) : DecodeEncode.Statement (.memBank bank) := rfl
theorem DecodeEncode.memChan (special : Bool) (val : Byte) : DecodeEncode.Statement (.memChan special val) := rfl
theorem DecodeEncode.freqRd : DecodeEncode.Statement .freqRd := rfl
theorem DecodeEncode.freqSet (n : BitVec 30) : DecodeEncode.Statement (.freqSet n) := rfl
theorem DecodeEncode.modeRd : DecodeEncode.Statement .modeRd := rfl
theorem DecodeEncode.modeSet (sel : BitVec 4) : DecodeEncode.Statement (.modeSet sel) := rfl
theorem DecodeEncode.pttRx : DecodeEncode.Statement .pttRx := rfl
theorem DecodeEncode.pttTx : DecodeEncode.Statement .pttTx := rfl

end Sys2Proof.Laws
end

