-- ==== Sys2Proof/Laws/Run.lean ====
section
/-! SUPPORT. Runs of several steps, put together from single steps, so that no proof unfolds `Host.Core.run`. -/

namespace Sys2Proof.Machine

/-- A run whose first step answers a next state goes on from it. -/
theorem run_next {s u : State} (k : Nat) (h : step s = .next u) :
    Host.Core.run Sys2Proof.core (k + 1) s = Host.Core.run Sys2Proof.core k u := by
  have general : ∀ (M : Host.Core) (s u : M.State), M.step s = .next u → M.run (k + 1) s = M.run k u := by
    intro M s u h
    simp only [Host.Core.run, h]
  exact general Sys2Proof.core s u h

/-- A run of one step. -/
theorem run_one {s u : State} (h : step s = .next u) : Host.Core.run Sys2Proof.core 1 s = .next u := run_next 0 h

/-- One run after another is a run. -/
theorem run_append {a b : Nat} {s t u : State} (h : Host.Core.run Sys2Proof.core a s = .next t)
    (h' : Host.Core.run Sys2Proof.core b t = .next u) : Host.Core.run Sys2Proof.core (a + b) s = .next u := by
  have general : ∀ (M : Host.Core) (a : Nat) (s t u : M.State), M.run a s = .next t → M.run b t = .next u →
      M.run (a + b) s = .next u := by
    intro M a
    induction a with
    | zero =>
      intro s t u h h'
      cases h
      simpa using h'
    | succ a ih =>
      intro s t u h h'
      rw [Nat.add_right_comm]
      simp only [Host.Core.run] at h ⊢
      split at h
      · exact ih _ _ _ h h'
      · cases h
      · cases h
  exact general Sys2Proof.core a s t u h h'

end Sys2Proof.Machine
end

