-- ==== Sys2Proof/Laws/Wire.lean ====
section
/-! SUPPORT. What the functions that read a sent sequence back give (R61, R83): the number of a frame byte by byte, the
bytes a row's pattern fixes, and the reading of a frame with the block's addresses. -/

namespace Sys2Proof.Machine

/-! ## The number of a frame (R61) -/

theorem frameNumber_snoc (f : List Byte) (b : Byte) : frameNumber (f ++ [b]) = frameNumber f * 2 ^ 8 + b.toNat := by
  simp [frameNumber, List.foldl_append]

/-- Sequences of one length with one number are one sequence. -/
theorem frameNumber_inj {n : Nat} {f g : List Byte} (hf : f.length = n) (hg : g.length = n)
    (h : frameNumber f = frameNumber g) : f = g := by
  induction n generalizing f g with
  | zero => rw [List.length_eq_zero_iff.1 hf, List.length_eq_zero_iff.1 hg]
  | succ n ih =>
    obtain rfl | ⟨f', b, rfl⟩ := List.eq_nil_or_concat f
    · simp at hf
    obtain rfl | ⟨g', c, rfl⟩ := List.eq_nil_or_concat g
    · simp at hg
    simp only [List.concat_eq_append, List.length_append, List.length_singleton, frameNumber_snoc] at hf hg h ⊢
    have hb := b.isLt
    have hc := c.isLt
    rw [ih (by omega) (by omega) (by omega : frameNumber f' = frameNumber g'), BitVec.eq_of_toNat_eq (by omega : b.toNat = c.toNat)]

/-- The conjunction of two numbers whose lowest bytes are `b` and `c`. -/
theorem and_lowest_byte (a x : Nat) (b c : Byte) :
    (a * 2 ^ 8 + b.toNat) &&& (x * 2 ^ 8 + c.toNat) = (a &&& x) * 2 ^ 8 + (b &&& c).toNat := by
  apply Nat.eq_of_testBit_eq
  intro i
  rw [Nat.testBit_and, Nat.mul_comm a, Nat.mul_comm x, Nat.mul_comm (a &&& x), Nat.testBit_two_pow_mul_add _ b.isLt,
    Nat.testBit_two_pow_mul_add _ c.isLt, Nat.testBit_two_pow_mul_add _ (b &&& c).isLt, BitVec.toNat_and]
  split <;> simp

/-- The conjunction of two frames' numbers is the number of the bytes' conjunctions. -/
theorem frameNumber_and {n : Nat} {f g : List Byte} (hf : f.length = n) (hg : g.length = n) :
    frameNumber f &&& frameNumber g = frameNumber (List.zipWith (· &&& ·) f g) := by
  induction n generalizing f g with
  | zero => rw [List.length_eq_zero_iff.1 hf, List.length_eq_zero_iff.1 hg]; rfl
  | succ n ih =>
    obtain rfl | ⟨f', b, rfl⟩ := List.eq_nil_or_concat f
    · simp at hf
    obtain rfl | ⟨g', c, rfl⟩ := List.eq_nil_or_concat g
    · simp at hg
    simp only [List.concat_eq_append, List.length_append, List.length_singleton] at hf hg ⊢
    rw [List.zipWith_append (by omega), frameNumber_snoc, frameNumber_snoc, and_lowest_byte, ih (by omega) (by omega)]
    exact (frameNumber_snoc _ _).symm

/-! ## Rows (R61) -/

/-- A frame of a row, byte by byte: with `m` and `k` the bytes of the row's pattern and mask, the frame's bytes under the
mask are the pattern's, and the row's constraint holds. -/
theorem WireRow.belongs_bytes {row : WireRow} {f m k : List Byte} (h : row.belongs f = true)
    (hm : frameNumber m = row.wireMatch) (hk : frameNumber k = row.wireMask) (lm : m.length = row.length)
    (lk : k.length = row.length) :
    f.length = row.length ∧ List.zipWith (· &&& ·) f k = m ∧ row.demand.holds f = true := by
  simp only [WireRow.belongs, Bool.and_eq_true, beq_iff_eq] at h
  obtain ⟨⟨hl, hn⟩, hc⟩ := h
  rw [← hk, frameNumber_and hl lk, ← hm] at hn
  exact ⟨hl, frameNumber_inj (by simp [hl, lk]) lm hn, hc⟩

/-! ## The reading (R83) -/

/-- Any number of lead-in bytes before a frame is removed. -/
theorem stripLeadin_replicate (k : Nat) (rest : List Byte) :
    stripLeadin (List.replicate k 0xFE ++ (0xFE :: 0xFE :: rest)) = stripLeadin (0xFE :: 0xFE :: rest) := by
  induction k with
  | zero => rfl
  | succ k ih =>
    rw [List.replicate_succ, List.cons_append, stripLeadin, if_pos, ih]
    refine ⟨rfl, ?_⟩
    rcases k with _ | _ | k <;> rfl

/-- A frame with the block's addresses and no inner terminator is read by its command byte and the bytes behind it. -/
theorem identify_frame {cmd : Byte} {body : List Byte} (hc : cmd ≠ 0xFD) (hb : (0xFD : Byte) ∉ body) :
    identify ([0xFE, 0xFE, 0x88, 0xE0, cmd] ++ (body ++ [0xFD])) = some (wireOpOf cmd body) := by
  have hs : stripLeadin ([0xFE, 0xFE, 0x88, 0xE0, cmd] ++ (body ++ [0xFD])) =
      [0xFE, 0xFE, 0x88, 0xE0, cmd] ++ (body ++ [0xFD]) := by
    simp [stripLeadin, Config.leadinByte]
  have hno : (cmd :: body).all (fun b => b != Config.term) = true := by
    simp only [List.all_eq_true, bne_iff_ne, Config.term, List.mem_cons]
    rintro x (rfl | hx) rfl
    · exact hc rfl
    · exact hb hx
  rw [identify, hs]
  simp only [List.cons_append, List.nil_append, List.dropLast_concat]
  exact if_pos ⟨rfl, rfl, rfl, by simp [Config.term], hno⟩

end Sys2Proof.Machine
end

