-- ==== Sys2Proof/Tests/Slice0.lean ====
section
/-! SUPPORT. Tests. Expected values are the spec's: the worked examples of the operation rules and the vectors of
`95_test_vectors.md`; request words are written out bit by bit from R67 and R12 (the order of the operand lines above
`OPID` is the model's, log entry 5). Then a witness for the hypotheses of every statement. -/

namespace Sys2Proof.Tests

open Sys2Proof.Machine

/-! ## WellFormed: an ill-formed term for each check -/

theorem test_build_of_31_lines_ill_formed : (Instr.build 0x08 false 0 0 (List.replicate 31 0)).wellFormed = false := by
  decide

theorem test_build_of_32_lines_well_formed : (Instr.build 0x08 false 0 0 (List.replicate 32 0)).wellFormed = true := by
  decide

theorem test_request_of_33_lines_ill_formed :
    Request.wellFormed { Request.zero with data := List.replicate 33 0 } = false := by
  decide

/-! ## Decoding, one written-out word for each operation -/

/-- BCD.DEC x=0x1234. -/
theorem test_decode_bcdDec : decodeTableWord 256 0x123401 = some (.bcdDec 0x1234) := by decide

/-- BCD.ENC v=9999. -/
theorem test_decode_bcdEnc : decodeTableWord 256 0x270f0000002 = some (.bcdEnc 9999) := by decide

/-- FREQ.ENC n=14652000. -/
theorem test_decode_freqEnc : decodeTableWord 256 0xdf926000000000003 = some (.freqEnc 14652000) := by decide

/-- FREQ.DEC b=[0x00, 0x20, 0x65, 0x14, 0x00]. -/
theorem test_decode_freqDec :
    decodeTableWord 256 0x51948000000000000000000004 =
      some (.freqDec { b0 := 0x00, b1 := 0x20, b2 := 0x65, b3 := 0x14, b4 := 0x00 }) := by
  decide

/-- MODE.ENC mode=DV. -/
theorem test_decode_modeEnc : decodeTableWord 256 0x240000000000000000000000000005 = some (.modeEnc 9) := by decide

/-- MODE.DEC b=[0x17]. -/
theorem test_decode_modeDec : decodeTableWord 256 0x5c000000000000000006 = some (.modeDec 0x17) := by decide

/-- CHAN.ENC chan=42. -/
theorem test_decode_chanEnc :
    decodeTableWord 256 0xa8000000000000000000000000000007 =
      some (.chanEnc false 42) := by
  decide

/-- BANK.ENC bank=3. -/
theorem test_decode_bankEnc : decodeTableWord 256 0xc00000000000000000000000000000008 = some (.bankEnc 3) := by decide

/-- BUILD cmd=0x08 sub=0xA0 data=[0x03]. -/
theorem test_decode_build :
    decodeTableWord 256 0x60d04200000000000000000000000000000000010 =
      some (.build 0x08 true 0xA0 1 (0x03 :: List.replicate 31 0x00)) := by
  decide

/-- BUILD.PWRON baud=19200. -/
theorem test_decode_buildPwron :
    decodeTableWord 256 0x1000000000000000000000000000011 =
      some (.buildPwron 4) := by
  decide

/-- EXEC. -/
theorem test_decode_execute : decodeTableWord 256 0x20 = some (.execute) := by decide

/-- PWR.OFF. -/
theorem test_decode_pwrOff : decodeTableWord 256 0x30 = some (.pwrOff) := by decide

/-- PWR.ON baud=9600. -/
theorem test_decode_pwrOn : decodeTableWord 256 0xc00000000000000000000000000031 = some (.pwrOn 3) := by decide

/-- VFO.A. -/
theorem test_decode_vfoA : decodeTableWord 256 0x32 = some (.vfoA) := by decide

/-- VFO.B. -/
theorem test_decode_vfoB : decodeTableWord 256 0x33 = some (.vfoB) := by decide

/-- MEM.MODE. -/
theorem test_decode_memMode : decodeTableWord 256 0x34 = some (.memMode) := by decide

/-- MEM.BANK bank=5. -/
theorem test_decode_memBank :
    decodeTableWord 256 0x1400000000000000000000000000000035 =
      some (.memBank 5) := by
  decide

/-- MEM.CHAN chan="1A". -/
theorem test_decode_memChan :
    decodeTableWord 256 0x2000000000000000000000000000036 =
      some (.memChan true 0) := by
  decide

/-- FREQ.RD. -/
theorem test_decode_freqRd : decodeTableWord 256 0x37 = some (.freqRd) := by decide

/-- FREQ.SET n=14652000. -/
theorem test_decode_freqSet : decodeTableWord 256 0xdf926000000000038 = some (.freqSet 14652000) := by decide

/-- MODE.RD. -/
theorem test_decode_modeRd : decodeTableWord 256 0x39 = some (.modeRd) := by decide

/-- MODE.SET mode=FM. -/
theorem test_decode_modeSet : decodeTableWord 256 0x14000000000000000000000000003a = some (.modeSet 5) := by decide

/-- PTT.RX. -/
theorem test_decode_pttRx : decodeTableWord 256 0x3b = some (.pttRx) := by decide

/-- PTT.TX. -/
theorem test_decode_pttTx : decodeTableWord 256 0x3c = some (.pttTx) := by decide

/-- The row's 8 bits alone: every operand line 0. -/
theorem test_decode_opid_alone : decodeTableWord 8 0x03 = some (.freqEnc 0) := by decide

/-- R78: a reserved `OPID` is rejected by name. -/
theorem test_decode_reserved : decodeWord 0x09 = .error (.reservedOpid 0x09) := by decide

/-- The numbers of R67 are pairwise different, so no two operations share a request. -/
theorem test_opids_differ :
    [Opid.bcdDec, Opid.bcdEnc, Opid.freqEnc, Opid.freqDec, Opid.modeEnc, Opid.modeDec, Opid.chanEnc, Opid.bankEnc,
      Opid.build, Opid.buildPwron, Opid.execute, Opid.pwrOff, Opid.pwrOn, Opid.vfoA, Opid.vfoB, Opid.memMode,
      Opid.memBank, Opid.memChan, Opid.freqRd, Opid.freqSet, Opid.modeRd, Opid.modeSet, Opid.pttRx,
      Opid.pttTx].Pairwise (· ≠ ·) := by
  decide

/-! ## States for the tests -/

/-- The state after a step, if there is one. -/
def after (o : Host.Outcome State Fault Refusal) : Option State :=
  match o with
  | .next s => some s
  | .fault _ => none
  | .refused _ => none

/-- A ready block with something in both buffers. -/
def built (tx rx : List Byte) : State := { State.reset with mem := { txbuf := tx, rxbuf := rx }, txi := 3, echolen := 4 }

/-- The frames of VFO.A and FREQ.RD (R74). -/
def vfoFrame : List Byte := [0xFE, 0xFE, 0x88, 0xE0, 0x07, 0x00, 0xFD]
def freqFrame : List Byte := [0xFE, 0xFE, 0x88, 0xE0, 0x03, 0xFD]

def busyStatus (em : Bool) : Status := { Status.accepted with em := em }

/-- In TX: `i` bytes of the frame of FREQ.RD are written. -/
def sending (i : Nat) (answers : List (Option TxAnswer)) : State :=
  { State.reset with
    latch := encode .freqRd
    mem := { txbuf := freqFrame, rxbuf := [] }
    txi := BitVec.ofNat 7 i
    phase := .tx
    status := busyStatus false
    env := { tx := answers, rx := [], drawn := 0 }
    trace := writesOk (freqFrame.take i) }

/-- In RX_ECHO of FREQ.RD, `rx` read so far. -/
def echoing (rx : List Byte) (answers : List (Option RxAnswer)) : State :=
  { State.reset with
    latch := encode .freqRd
    mem := { txbuf := freqFrame, rxbuf := rx }
    txi := 6
    phase := .rxEcho
    status := busyStatus false
    env := { tx := [], rx := answers, drawn := 0 }
    trace := writesOk freqFrame ++ readsOf rx }

/-- In RX_REPLY of the operation `i` after the echo `echo` of the frame of FREQ.RD, `rx` read so far. -/
def replying (i : Instr) (echo rx : List Byte) (answers : List (Option RxAnswer)) : State :=
  { State.reset with
    latch := encode i
    mem := { txbuf := freqFrame, rxbuf := rx }
    txi := 6
    echolen := BitVec.ofNat 7 echo.length
    phase := .rxReply
    status := busyStatus (!echoEqual echo freqFrame)
    env := { tx := [], rx := answers, drawn := 0 }
    trace := writesOk freqFrame ++ readsOf echo ++ readsOf rx }

/-- The step that reads the reply's terminator: `STATUS` and the result registers after it. -/
def ended (i : Instr) (echo rx : List Byte) : Option (BitVec 16 × Results) :=
  (after (step (replying i echo rx [some (.byte 0xFD)]))).map fun t => (statusWord t.status, t.results)

/-! ## Codec operations: the examples of R99 to R106 -/

theorem test_bcdDec : (after (exec (.bcdDec 0xFFFFF) State.reset)).map (·.results.value) = some 166665 := by decide

theorem test_bcdEnc : (after (exec (.bcdEnc 65535) State.reset)).map (·.results.value) = some 0x65535 := by decide

theorem test_freqEnc :
    (after (exec (.freqEnc 14652000) State.reset)).map (bytes5List ·.results.bytes) =
      some [0x00, 0x20, 0x65, 0x14, 0x00] := by
  decide

/-- ERR = UnsupportedValue, DONE. -/
theorem test_freqEnc_refused :
    (after (exec (.freqEnc 1000000000) State.reset)).map (statusWord ·.status) = some 0x0142 := by
  decide

theorem test_freqDec :
    (after (exec (.freqDec { b0 := 0xAB, b1 := 0, b2 := 0, b3 := 0, b4 := 0 }) State.reset)).map (·.results.value) =
      some 111 := by
  decide

theorem test_modeEnc : (after (exec (.modeEnc 9) State.reset)).map (·.results.bytes.b0) = some 0x17 := by decide

theorem test_modeDec : (after (exec (.modeDec 0x17) State.reset)).map (·.results.modeSel) = some 9 := by decide

/-- ERR = MalformedResponse, ERRPH = 0, DONE. -/
theorem test_modeDec_unknown : (after (exec (.modeDec 0x23) State.reset)).map (statusWord ·.status) = some 0x0102 := by
  decide

theorem test_chanEnc : (after (exec (.chanEnc false 42) State.reset)).map (·.results.bytes.b0) = some 0x42 := by decide

theorem test_chanEnc_special :
    (after (exec (.chanEnc true 0) State.reset)).map (fun t => (t.results.bytes.b0, t.results.bytes.b1, t.results.blen)) =
      some (0x01, 0x00, 2) := by
  decide

theorem test_bankEnc : (after (exec (.bankEnc 3) State.reset)).map (·.results.bytes.b0) = some 0x03 := by decide

/-! ## Builder operations: the examples of R111 and R112 -/

theorem test_build :
    (after (exec (.build 0x03 false 0xFD 0 (List.replicate 32 0)) State.reset)).map (·.mem.txbuf) = some freqFrame := by
  decide

/-- R111, R113: an inner 0xFD is refused and the earlier frame stays. -/
theorem test_build_refused :
    (after (exec (.build 0x08 false 0 1 (0xFD :: List.replicate 31 0)) (built vfoFrame []))).map
      (fun t => (t.mem.txbuf, statusWord t.status)) = some (vfoFrame, 0x0142) := by
  decide

theorem test_buildPwron :
    (after (exec (.buildPwron 4) State.reset)).map (fun t => (t.txlen, t.mem.txAt 26, t.mem.txAt 27)) =
      some (32, some 0xFE, some 0x88) := by
  decide

/-- R41: the longest sequences fit `TXBUF`. -/
theorem test_txmax_suffices : 7 + Config.dataMax ≤ Config.txMax ∧ ∀ k ∈ Config.leadin, 7 + k ≤ Config.txMax := by decide

/-! ## Frames of the command operations: table 3.1 of `95_test_vectors.md` -/

def sends (i : Instr) : Option (List Byte) := (after (exec i State.reset)).map (·.mem.txbuf)

theorem test_execute_unbuilt : (after (exec .execute State.reset)).map (statusWord ·.status) = some 0x0142 := by decide
theorem test_execute : (after (exec .execute (built vfoFrame []))).map (·.phase) = some .tx := by decide
theorem test_pwrOff : sends .pwrOff = some [0xFE, 0xFE, 0x88, 0xE0, 0x18, 0x00, 0xFD] := by decide
theorem test_pwrOn : sends (.pwrOn 0) = some [0xFE, 0xFE, 0xFE, 0xFE, 0x88, 0xE0, 0x18, 0x01, 0xFD] := by decide
theorem test_vfoA : sends .vfoA = some [0xFE, 0xFE, 0x88, 0xE0, 0x07, 0x00, 0xFD] := by decide
theorem test_vfoB : sends .vfoB = some [0xFE, 0xFE, 0x88, 0xE0, 0x07, 0x01, 0xFD] := by decide
theorem test_memMode : sends .memMode = some [0xFE, 0xFE, 0x88, 0xE0, 0x08, 0xFD] := by decide
theorem test_memBank : sends (.memBank 3) = some [0xFE, 0xFE, 0x88, 0xE0, 0x08, 0xA0, 0x03, 0xFD] := by decide
theorem test_memChan : sends (.memChan false 42) = some [0xFE, 0xFE, 0x88, 0xE0, 0x08, 0x42, 0xFD] := by decide
theorem test_freqRd : sends .freqRd = some [0xFE, 0xFE, 0x88, 0xE0, 0x03, 0xFD] := by decide
theorem test_freqSet :
    sends (.freqSet 999999999) = some [0xFE, 0xFE, 0x88, 0xE0, 0x00, 0x99, 0x99, 0x99, 0x99, 0x09, 0xFD] := by decide
theorem test_modeRd : sends .modeRd = some [0xFE, 0xFE, 0x88, 0xE0, 0x04, 0xFD] := by decide
theorem test_modeSet : sends (.modeSet 9) = some [0xFE, 0xFE, 0x88, 0xE0, 0x06, 0x17, 0xFD] := by decide
theorem test_pttRx : sends .pttRx = some [0xFE, 0xFE, 0x88, 0xE0, 0x1C, 0x00, 0x00, 0xFD] := by decide
theorem test_pttTx : sends .pttTx = some [0xFE, 0xFE, 0x88, 0xE0, 0x1C, 0x00, 0x01, 0xFD] := by decide

/-! ## Replies: the rows K1, K4, K9, M1 and M4 of part 3.2, and R151 -/

/-- K1: DATA, 14652000, no error. -/
theorem test_freqRd_reply :
    ended .freqRd freqFrame [0xFE, 0xFE, 0xE0, 0x88, 0x03, 0x00, 0x20, 0x65, 0x14, 0x00] =
      some (0x001A, { Results.zero with value := 14652000 }) := by
  decide

/-- K9: after a wrong echo the value is delivered with EchoMismatch. -/
theorem test_freqRd_reply_after_mismatch :
    ended .freqRd [0xFE, 0xFE, 0x88, 0xE0, 0x04, 0xFD]
        [0xFE, 0xFE, 0xE0, 0x88, 0x03, 0x00, 0x20, 0x65, 0x14, 0x00] =
      some (0x049E, { Results.zero with value := 14652000 }) := by
  decide

/-- M1: FM with filter 1. -/
theorem test_modeRd_reply :
    ended .modeRd freqFrame [0xFE, 0xFE, 0xE0, 0x88, 0x04, 0x05, 0x01] =
      some (0x001A, { Results.zero with modeSel := 5, filter := 1, hasFilter := true }) := by
  decide

/-- M4: an unknown mode code is MalformedResponse and writes no filter. -/
theorem test_modeRd_unknown_reply :
    ended .modeRd freqFrame [0xFE, 0xFE, 0xE0, 0x88, 0x04, 0x09, 0x01] = some (0x071A, Results.zero) := by
  decide

/-- R174: NG is Rejected, charged to RX_REPLY. -/
theorem test_vfoA_rejected :
    ended .vfoA freqFrame [0xFE, 0xFE, 0xE0, 0x88, 0xFA] = some (0x06D2, Results.zero) := by decide

/-- R125: a wrong echo sets `EM` and the transaction goes on. -/
theorem test_echo_mismatch :
    (after (step (echoing [0xFE] [some (.byte 0xFD)]))).map (fun t => (t.phase, t.status.em, t.echolen, t.rxlen)) =
      some (.rxReply, true, 2, 0) := by
  decide

/-- R124: the 64th byte without a terminator is MalformedResponse, charged to RX_ECHO. -/
theorem test_overflow :
    (after (step (echoing (List.replicate 63 0x00) [some (.byte 0x00)]))).map (fun t => (t.rxlen, statusWord t.status)) =
      some (64, 0x0502) := by
  decide

/-- R83 on the vectors' frames. -/
theorem test_identify_memBank : identify [0xFE, 0xFE, 0x88, 0xE0, 0x08, 0xA0, 0x05, 0xFD] = some (.memBank 0x05) := by
  decide

/-- R83: a frame of eleven bytes with command 0x00 is read as FREQ.SET, whatever its payload. -/
theorem test_identify_freqSet :
    identify [0xFE, 0xFE, 0x88, 0xE0, 0x00, 0xAB, 0x20, 0x65, 0x14, 0x99, 0xFD] =
      some (.freqSet [0xAB, 0x20, 0x65, 0x14, 0x99]) := by
  decide

/-- The example of R61. -/
theorem test_frameNumber : frameNumber freqFrame = 0xFEFE88E003FD := by decide

/-- R61, the row of FREQ.SET: a frame of the vectors belongs to it; a payload with a nibble above 9 does not. -/
theorem test_wireRow_freqSet :
    (wireRows.filter fun row => row.belongs [0xFE, 0xFE, 0x88, 0xE0, 0x00, 0x00, 0x20, 0x65, 0x14, 0x00, 0xFD]).map
        (·.mnemonic) = ["FREQ.SET"] ∧
    wireRows.filter (fun row => row.belongs [0xFE, 0xFE, 0x88, 0xE0, 0x00, 0xAB, 0x20, 0x65, 0x14, 0x00, 0xFD]) = [] := by
  decide

/-! ## Witnesses: states and operands that meet the hypotheses of the statements -/

/-- What the environment will answer is no part of the invariant. -/
theorem inv_env {s : State} (e : Env) (h : Inv s) : Inv { s with env := e } :=
  ⟨h.busy, h.notBoth, h.unreported, h.noErr, h.txbuf, h.rxbuf, h.counters, h.results, h.lines, h.trace, h.outcome, h.shape⟩

/-- States in the middle of TX that have the invariant. -/
theorem inv_sending (i : Nat) (hi : i ∈ [0, 2, 5]) (answers : List (Option TxAnswer)) : Inv (sending i answers) := by
  have h : Inv (sending i []) := by
    simp only [List.mem_cons, List.not_mem_nil, or_false] at hi
    rcases hi with rfl | rfl | rfl <;>
    exact ⟨by decide, by decide, by decide, by decide, .inr (by decide), by decide, by decide, by decide, by decide,
      .inl ⟨_, rfl⟩, by decide, ⟨by decide, rfl, rfl, rfl, rfl⟩⟩
  exact inv_env { tx := answers, rx := [], drawn := 0 } h

/-- A state in the middle of RX_ECHO that has the invariant. -/
theorem inv_echoing (answers : List (Option RxAnswer)) : Inv (echoing [0xFE, 0xFE] answers) := by
  have h : Inv (echoing [0xFE, 0xFE] []) :=
    ⟨by decide, by decide, by decide, by decide, .inr (by decide), by decide, by decide, by decide, by decide,
      .inr (.inr ⟨[.byte 0xFE, .byte 0xFE], rfl, by decide, by simp⟩), by decide,
      ⟨rfl, rfl, rfl, ⟨by decide, by decide⟩, rfl⟩⟩
  exact inv_env { tx := [], rx := answers, drawn := 0 } h

/-- A state in the middle of RX_REPLY that has the invariant. -/
theorem inv_replying (answers : List (Option RxAnswer)) : Inv (replying .freqRd freqFrame [0xFE] answers) := by
  have h : Inv (replying .freqRd freqFrame [0xFE] []) := by
    refine ⟨by decide, by decide, by decide, by decide, .inr (by decide), by decide, by decide, by decide, by decide,
      .inr (.inr ⟨(freqFrame ++ [0xFE]).map .byte, rfl, by decide, ?_⟩), by decide,
      ⟨rfl, ⟨by decide, by decide⟩, freqFrame, ⟨rfl, by decide, by decide⟩, rfl, by decide, rfl⟩⟩
    intro a ha
    obtain ⟨b, _, rfl⟩ := List.mem_map.1 (List.mem_of_mem_dropLast ha)
    exact ⟨b, rfl⟩
  exact inv_env { tx := [], rx := answers, drawn := 0 } h

theorem witness_ResetRegisters : (bytes5List State.reset.results.bytes)[4]? = some 0 := by decide

theorem witness_AddressRegistersReadAlways : State.reset.status.busy = false := by decide

theorem witness_ResetMidOperation : Inv (sending 2 []) ∧ (sending 2 []).phase = .tx := ⟨inv_sending 2 (by decide) [], rfl⟩

theorem witness_StepRunsPresentedRequest :
    ∃ (s : State) (r : Request) (rest : List Request) (i : Instr),
      s.Ready ∧ s.port = r :: rest ∧ decode r = .ok i ∧ r.wellFormed = true :=
  ⟨{ State.reset with port := [encode (.bankEnc 3)] }, encode (.bankEnc 3), [], .bankEnc 3, ⟨rfl, rfl⟩, rfl, by decide,
    by decide⟩

/-- The reserved numbers next to listed ones, and both ends. -/
theorem witness_ReservedOpidCompletesUnsupported :
    ∀ n ∈ [0x00, 0x09, 0x0F, 0x12, 0x1F, 0x21, 0x2F, 0x3D, 0xFF], ∃ (s : State) (r : Request) (rest : List Request),
      s.Ready ∧ s.port = r :: rest ∧ r.opid.toNat = n ∧
      r.opid.toNat ∉ [0x01, 0x02, 0x03, 0x04, 0x05, 0x06, 0x07, 0x08, 0x10, 0x11, 0x20, 0x30, 0x31, 0x32, 0x33, 0x34,
        0x35, 0x36, 0x37, 0x38, 0x39, 0x3A, 0x3B, 0x3C] := by
  intro n hn
  refine ⟨{ State.reset with port := [{ Request.zero with opid := BitVec.ofNat 8 n }] },
    { Request.zero with opid := BitVec.ofNat 8 n }, [], ⟨rfl, rfl⟩, rfl, ?_⟩
  revert n
  decide

theorem witness_IdleBlockWaits : State.reset.Ready ∧ State.reset.port = [] := ⟨⟨rfl, rfl⟩, rfl⟩

theorem witness_BusyBlockHoldsRequests :
    ¬ (sending 2 [some .ok]).Ready ∧ (sending 2 [some .ok]).phase ≠ .idle ∧ ∃ t, step (sending 2 [some .ok]) = .next t :=
  ⟨by simp [State.Ready, sending], by decide, _, rfl⟩

/-- An operation that completes at once, one that is refused, and one that enters TX. -/
theorem witness_AcceptanceStepFrame :
    ∀ i ∈ [Instr.bankEnc 5, .bankEnc 6, .vfoA], (built vfoFrame []).Ready ∧ ∃ t, exec i (built vfoFrame []) = .next t := by
  intro i hi
  refine ⟨⟨rfl, rfl⟩, ?_⟩
  simp only [List.mem_cons, List.not_mem_nil, or_false] at hi
  rcases hi with rfl | rfl | rfl <;> exact ⟨_, rfl⟩

theorem witness_RequestRecordsRoundTrip :
    Request.wellFormed { Request.zero with opid := 0xFF, dlen := 63, data := List.replicate 32 0xFF } = true := by
  decide

theorem witness_EveryRequestDecodesFromItsWord :
    (Instr.build 0xFF true 0xFF 63 (List.replicate 32 0xFF)).wellFormed = true := by
  decide

/-- The ends of the ranges the codec's laws speak of. -/
theorem witness_BcdLaws : (0 : Nat) ≤ 99 ∧ 99 ≤ 99 ∧ 0xFF < 16 ^ 2 ∧ (0x99 : Byte).toNat / 16 ≤ 9 ∧
    (0x99 : Byte).toNat % 16 ≤ 9 := by
  decide

theorem witness_BcdBytesLayout : 999 < 100 ^ 2 ∧ 1 < 2 := by decide

theorem witness_DecBcdIsTheLoop : 0x1234 ≤ 0x1234 := by decide

theorem witness_EncBcdIsTheLoop : 1234 ≤ 1234 := by decide

theorem witness_FrequencyRoundTrip : 999999999 ≤ 999999999 := by decide

theorem witness_ModeTableRoundTrip :
    (9 : BitVec 4).toNat ≤ 9 ∧ (10 : BitVec 4).toNat > 9 ∧ modeName 0x17 = some 9 := by
  decide

/-- A ready block, and the boundary operands of each clause of the codec statements. -/
theorem witness_CodecResults :
    (built vfoFrame []).Ready ∧ (999999999 : BitVec 30).toNat ≤ 999999999 ∧
    (1000000000 : BitVec 30).toNat > 999999999 ∧ (9 : BitVec 4).toNat ≤ 9 ∧ (10 : BitVec 4).toNat > 9 ∧
    (8 : Byte).toNat ≤ 8 ∧ (9 : Byte).toNat > 8 ∧ (9 : Byte) ≠ 0x17 ∧
    (99 : Byte).toNat ≤ 99 ∧ (100 : Byte).toNat > 99 ∧ (1 : Byte) ≠ 0 ∧
    (1 ≤ (1 : Byte).toNat ∧ (5 : Byte).toNat ≤ 5) ∧ ¬ (1 ≤ (0 : Byte).toNat ∧ (0 : Byte).toNat ≤ 5) ∧
    ¬ (1 ≤ (6 : Byte).toNat ∧ (6 : Byte).toNat ≤ 5) :=
  ⟨⟨rfl, rfl⟩, by decide⟩

/-- The longest and the shortest data. -/
theorem witness_BuildStoresTheFrame :
    (built vfoFrame []).Ready ∧ (List.replicate 32 (0 : Byte)).length = 32 ∧
    ¬ IllegalOperands (built vfoFrame []) (.build 0xFE true 0xFE 32 (List.replicate 32 0)) ∧
    ¬ IllegalOperands (built vfoFrame []) (.build 0x03 false 0xFD 0 (List.replicate 32 0xFD)) :=
  ⟨⟨rfl, rfl⟩, by decide, by unfold IllegalOperands; decide, by unfold IllegalOperands; decide⟩

/-- Every legal baud selector, and the first illegal one. -/
theorem witness_BuildPwronStoresTheSequence :
    State.reset.Ready ∧ (∀ b : BitVec 3, b.toNat ≤ 4 →
      ∃ k, (b.toNat, k) ∈ [(0, 2), (1, 3), (2, 17), (3, 13), (4, 25)]) ∧ (5 : BitVec 3).toNat > 4 := by
  refine ⟨⟨rfl, rfl⟩, ?_, by decide⟩
  intro b hb
  have h : b.toNat = 0 ∨ b.toNat = 1 ∨ b.toNat = 2 ∨ b.toNat = 3 ∨ b.toNat = 4 := by omega
  rcases h with h | h | h | h | h <;> rw [h] <;> simp

/-- One request for every cause R176 lists. -/
theorem witness_IllegalOperandsRefused :
    State.reset.Ready ∧ ∀ i ∈ [Instr.freqEnc 1000000000, .modeEnc 10, .chanEnc false 100, .chanEnc true 1, .bankEnc 0,
      .bankEnc 6, .build 0 false 0 33 (List.replicate 32 0), .build 0xFD false 0 0 (List.replicate 32 0),
      .build 0 true 0xFD 0 (List.replicate 32 0), .build 0 false 0 32 (List.replicate 31 0 ++ [0xFD]), .buildPwron 5,
      .execute, .pwrOn 7, .memBank 0, .memBank 255, .memChan false 100, .memChan true 1, .freqSet 1000000000,
      .modeSet 15], IllegalOperands State.reset i := by
  refine ⟨⟨rfl, rfl⟩, ?_⟩
  intro i hi
  simp only [List.mem_cons, List.not_mem_nil, or_false] at hi
  rcases hi with rfl | rfl | rfl | rfl | rfl | rfl | rfl | rfl | rfl | rfl | rfl | rfl | rfl | rfl | rfl | rfl | rfl | rfl |
    rfl <;> unfold IllegalOperands <;> decide

theorem witness_ExecEntersTx :
    (built vfoFrame []).Ready ∧ (built vfoFrame []).mem.wf = true ∧ (built vfoFrame []).mem.txbuf ≠ [] :=
  ⟨⟨rfl, rfl⟩, by decide, by decide⟩

theorem witness_PlainCommandsEnterTx :
    State.reset.Ready ∧ (Instr.pttTx, (0x3C : Byte), ([0x1C, 0x00, 0x01] : List Byte)) ∈
      [(Instr.pwrOff, (0x30 : Byte), ([0x18, 0x00] : List Byte)),
      (.vfoA, 0x32, [0x07, 0x00]), (.vfoB, 0x33, [0x07, 0x01]), (.memMode, 0x34, [0x08]), (.freqRd, 0x37, [0x03]),
      (.modeRd, 0x39, [0x04]), (.pttRx, 0x3B, [0x1C, 0x00, 0x00]), (.pttTx, 0x3C, [0x1C, 0x00, 0x01])] :=
  ⟨⟨rfl, rfl⟩, by decide⟩

theorem witness_PwrOnEntersTx :
    State.reset.Ready ∧ ((4 : BitVec 3).toNat, 25) ∈ [(0, 2), (1, 3), (2, 17), (3, 13), (4, 25)] :=
  ⟨⟨rfl, rfl⟩, by decide⟩

theorem witness_SelectCommandsEnterTx :
    State.reset.Ready ∧ 1 ≤ (1 : Byte).toNat ∧ (5 : Byte).toNat ≤ 5 ∧ (99 : Byte).toNat ≤ 99 ∧ (9 : BitVec 4).toNat ≤ 9 :=
  ⟨⟨rfl, rfl⟩, by decide⟩

theorem witness_FreqSetEntersTx : State.reset.Ready ∧ (999999999 : BitVec 30).toNat ≤ 999999999 :=
  ⟨⟨rfl, rfl⟩, by decide⟩

/-- One operation of each disjunct. -/
theorem witness_CommandIsBuildThenExec :
    State.reset.Ready ∧ bankByte 5 = some 5 ∧ chanBytes true 0 = some [0x01, 0x00] ∧ chanBytes false 99 = some [0x99] ∧
    freqBytes 0 = some [0, 0, 0, 0, 0] ∧ modeCode 9 = some 0x17 ∧ (0 : BitVec 3).toNat ≤ 4 ∧ (4 : BitVec 3).toNat ≤ 4 :=
  ⟨⟨rfl, rfl⟩, by decide⟩

/-- The first byte, the last byte, and a byte whose write fails. -/
theorem witness_TxStepByAnswer :
    ∀ (i : Nat) (a : TxAnswer), (i, a) ∈ [(0, .ok), (5, .ok), (5, .fail)] → (sending i [some a]).phase = .tx ∧
      (∃ b, (sending i [some a]).mem.txAt (sending i [some a]).txi.toNat = some b) ∧
      (sending i [some a]).mem.txbuf.length ≤ 64 ∧ (sending i [some a]).env.tx = some a :: [] := by
  intro i a h
  simp only [List.mem_cons, List.not_mem_nil, or_false, Prod.mk.injEq] at h
  rcases h with ⟨rfl, rfl⟩ | ⟨rfl, rfl⟩ | ⟨rfl, rfl⟩ <;> exact ⟨rfl, ⟨_, rfl⟩, by decide, rfl⟩

/-- A byte that leaves room, the byte that fills the buffer, Timeout and Fail, in both phases. -/
theorem witness_RxStepWithoutTerminator :
    ∀ n ∈ [62, 63], ∀ a ∈ [RxAnswer.byte 0x00, .timeout, .fail],
      (echoing (List.replicate n 0x00) [some a]).phase = .rxEcho ∧
      (replying .freqRd freqFrame (List.replicate n 0x00) [some a]).phase = .rxReply ∧
      (echoing (List.replicate n 0x00) [some a]).mem.rxbuf.length < 64 ∧
      (echoing (List.replicate n 0x00) [some a]).env.rx = some a :: [] ∧ a ≠ .byte 0xFD := by
  decide

/-- A right echo and a wrong one. -/
theorem witness_EchoCompletes :
    ∀ rx ∈ [freqFrame.dropLast, []], (echoing rx [some (.byte 0xFD)]).phase = .rxEcho ∧
      (echoing rx [some (.byte 0xFD)]).mem.rxbuf.length < 64 ∧
      (echoing rx [some (.byte 0xFD)]).env.rx = some (.byte 0xFD) :: [] := by
  decide

/-- Replies of every class, for EXEC, a set operation, FREQ.RD and MODE.RD, after a right and after a wrong echo. -/
theorem witness_ReplyTables :
    ∀ i ∈ [Instr.execute, .vfoA, .freqRd, .modeRd], ∀ echo ∈ [freqFrame, [0xFD]],
      ∀ rx ∈ [[], [0, 0, 0, 0, 0xFB], [0, 0, 0, 0, 0xFA], [0, 0, 0, 0, 0], [0, 0, 0, 0, 0, 0x17], [0, 0, 0, 0, 0, 0x05, 0x01],
          [0, 0, 0, 0, 0, 0x09], List.replicate 10 0xFF],
        (replying i echo rx [some (.byte 0xFD)]).phase = .rxReply ∧
        (replying i echo rx [some (.byte 0xFD)]).mem.rxbuf.length < 64 ∧
        (replying i echo rx [some (.byte 0xFD)]).env.rx = some (.byte 0xFD) :: [] ∧
        (replying i echo rx [some (.byte 0xFD)]).latch.opid ∈ [0x20, 0x32, 0x37, 0x39] ∧
        (replying i echo rx [some (.byte 0xFD)]).status.em = (echo != freqFrame) := by
  decide

/-- The payload of eleven bytes, and the codes of seven and eight. -/
theorem witness_ReadReplyTables :
    (List.replicate 10 (0xFF : Byte)).drop 5 =
      bytes5List { b0 := 0xFF, b1 := 0xFF, b2 := 0xFF, b3 := 0xFF, b4 := 0xFF } ∧
    ([0, 0, 0, 0, 0, 0x17] : List Byte)[5]? = some 0x17 ∧
    (0x17 : Byte).toNat = (if (9 : BitVec 4) = 9 then 0x17 else (9 : BitVec 4).toNat) ∧
    ([0, 0, 0, 0, 0, 0x05, 0x01] : List Byte)[6]? = some 0x01 ∧ (0x09 : Byte).toNat > 8 ∧ (0x09 : Byte) ≠ 0x17 := by
  decide

theorem witness_SilentEnvironmentBlockWaits :
    (sending 5 [none]).phase = .tx ∧ (sending 5 [none]).txi.toNat < (sending 5 [none]).mem.txbuf.length ∧
    (sending 5 [none]).env.tx = none :: [] ∧ (echoing (List.replicate 63 0) [none]).phase = .rxEcho ∧
    (echoing (List.replicate 63 0) [none]).mem.rxbuf.length < 64 ∧
    (echoing (List.replicate 63 0) [none]).env.rx = none :: [] := by
  decide

theorem witness_PhaseOrder : ∃ t, step (sending 5 [some .ok]) = .next t ∧ t.phase = .rxEcho := ⟨_, rfl, by decide⟩

/-- A busy block, a block that is neither busy nor done with full buffers, and a completed operation with results. -/
theorem witness_CallerReadsWhenNotBusy :
    (sending 2 []).status.busy = true ∧ CallerReg.txlen ≠ .status ∧
    (built (List.replicate 64 1) (List.replicate 64 2)).status.busy = false ∧
    (built (List.replicate 64 1) (List.replicate 64 2)).mem.wf = true ∧
    (built (List.replicate 64 1) (List.replicate 64 2)).mem.rxbuf[63]? = some 2 ∧
    (built vfoFrame []).status.done = false ∧
    ∃ t, exec (.freqEnc 14652000) State.reset = .next t ∧ t.status.done = true ∧ t.results.blen.toNat = 5 := by
  exact ⟨rfl, by decide, rfl, by decide, by decide, rfl, _, rfl, rfl, rfl⟩

theorem witness_StepKeepsInvariant : ∃ s t, Inv s ∧ step s = .next t ∧ t.phase = .rxEcho :=
  ⟨sending 5 [some .ok], _, inv_sending 5 (by decide) _, rfl, by decide⟩

theorem witness_InvariantStatesAlwaysStep : Inv (replying .freqRd freqFrame [0xFE] []) := inv_replying []

/-- A step that leaves a trace with writes and reads, and a step that accepts a request. -/
theorem witness_WritesPrecedeReads :
    (∃ t, Inv (replying .freqRd freqFrame [0xFE] [some .timeout]) ∧
      step (replying .freqRd freqFrame [0xFE] [some .timeout]) = .next t ∧
      t.trace[5]? = some (.wrote 0xFD .ok) ∧ t.trace[13]? = some (.got .timeout)) ∧
    ∃ t, Inv { State.reset with port := [encode .freqRd] } ∧
      step { State.reset with port := [encode .freqRd] } = .next t ∧ t.trace = [] := by
  refine ⟨⟨_, inv_replying _, rfl, by decide, by decide⟩, _, ?_, rfl, rfl⟩
  exact ⟨by decide, by decide, by decide, by decide, .inl rfl, by decide, by decide, by decide, by decide,
    .inl ⟨0, rfl⟩, by decide, trivial⟩

/-- A run that ends in TX, one that ends in RX_ECHO, one that ends in RX_REPLY, and one with a reply. -/
theorem witness_SmallStepsAgreeWithTxn :
    ∀ (w : List TxAnswer) (a : List RxAnswer),
      (w, a) ∈ [([TxAnswer.ok, .fail], []), (List.replicate 6 .ok, [.timeout]),
        (List.replicate 6 .ok, [.byte 0xFD, .byte 0xFE, .fail]), (List.replicate 6 .ok, [.byte 0xFD, .byte 0xFD])] →
      ∃ (s : State) (r : TxnResult), TxnAtStart s ∧ s.env.tx = w.map some ++ [] ∧ s.env.rx = a.map some ++ [] ∧
        txn s.mem.txbuf w a = some r := by
  intro w a h
  have hr : ∃ r, txn freqFrame w a = some r := by
    simp only [List.mem_cons, List.not_mem_nil, or_false, Prod.mk.injEq] at h
    rcases h with ⟨rfl, rfl⟩ | ⟨rfl, rfl⟩ | ⟨rfl, rfl⟩ | ⟨rfl, rfl⟩ <;> exact ⟨_, rfl⟩
  obtain ⟨r, hr⟩ := hr
  exact ⟨{ sending 0 (w.map some) with env := { tx := w.map some, rx := a.map some, drawn := 0 } }, r,
    ⟨rfl, rfl, rfl, rfl, rfl, rfl, List.cons_ne_nil _ _, Nat.le_of_ble_eq_true rfl⟩, by simp, by simp, hr⟩

/-- Every write taken, every read a byte that ends no frame. -/
def answering : Env := { tx := List.replicate 6 (some .ok), rx := List.replicate 128 (some (.byte 0)), drawn := 0 }

theorem answering_tx (i : Nat) (hi : i < 6) : ∃ a, answering.tx[i]? = some (some a) :=
  ⟨.ok, List.getElem?_replicate_of_lt hi⟩

theorem answering_rx (i : Nat) (hi : i < 2 * 64) : ∃ a, answering.rx[i]? = some (some a) :=
  ⟨.byte 0, List.getElem?_replicate_of_lt hi⟩

/-- Transactions in progress in each phase, with an environment that answers. -/
theorem witness_AnsweredTransactionCompletes :
    ∃ s1 s2 s3 : State, (∀ s ∈ [s1, s2, s3], Inv s ∧ s.phase ≠ .idle ∧
      (∀ i, i < s.mem.txbuf.length → ∃ a, s.env.tx[i]? = some (some a)) ∧
      ∀ i, i < 2 * 64 → ∃ a, s.env.rx[i]? = some (some a)) ∧ [s1, s2, s3].map (·.phase) = [.tx, .rxEcho, .rxReply] := by
  refine ⟨{ sending 2 [] with env := answering }, { echoing [0xFE, 0xFE] [] with env := answering },
    { replying .freqRd freqFrame [0xFE] [] with env := answering }, ?_, rfl⟩
  intro s hs
  simp only [List.mem_cons, List.not_mem_nil, or_false] at hs
  rcases hs with rfl | rfl | rfl
  · exact ⟨inv_env _ (inv_sending 2 (by decide) []), by decide, answering_tx, answering_rx⟩
  · exact ⟨inv_env _ (inv_echoing []), by decide, answering_tx, answering_rx⟩
  · exact ⟨inv_env _ (inv_replying []), by decide, answering_tx, answering_rx⟩

/-- FREQ.RD and EXEC presented to a ready block, the reply read. -/
theorem witness_RequestRunsItsTransaction :
    ∀ i ∈ [Instr.freqRd, .execute], ∃ (s : State) (q : Request) (f : List Byte) (w : List TxAnswer) (a : List RxAnswer)
      (r : TxnResult), s.Ready ∧ s.mem.wf = true ∧ s.port = q :: [] ∧ decode q = .ok i ∧ sequenceOf s i = some f ∧
        s.env.tx = w.map some ++ [] ∧ s.env.rx = a.map some ++ [] ∧ txn f w a = some r := by
  intro i hi
  refine ⟨{ built freqFrame [] with
      port := [encode i], env := { tx := List.replicate 6 (some .ok), rx := [some (.byte 0xFD), some (.byte 0xFD)], drawn := 0 } },
    encode i, freqFrame, List.replicate 6 .ok, [.byte 0xFD, .byte 0xFD], _, ⟨rfl, rfl⟩, rfl, rfl, ?_, ?_, rfl, rfl, rfl⟩
  · revert i; decide
  · simp only [List.mem_cons, List.not_mem_nil, or_false] at hi
    rcases hi with rfl | rfl <;> decide

/-- The right echo and the shortest wrong one, with the reply of K1. -/
theorem witness_FreqRdDeliversTheFrequency :
    ∀ echo ∈ [[0xFE, 0xFE, 0x88, 0xE0, 0x03], ([] : List Byte)], ∃ (s : State) (r : Request) (header : List Byte),
      s.Ready ∧ s.port = r :: [] ∧ r.opid = 0x37 ∧ 14652000 ≤ 999999999 ∧ (0xFD : Byte) ∉ echo ∧ echo.length < 64 ∧
      (0xFD : Byte) ∉ header ∧ header.length = 5 ∧ s.env.tx = List.replicate 6 (some .ok) ++ [] ∧
      s.env.rx = (echo ++ [0xFD] ++ header ++ freqEnc 14652000 ++ [0xFD]).map (fun b => some (.byte b)) ++ [] := by
  intro echo he
  refine ⟨{ State.reset with
      port := [encode .freqRd]
      env := { tx := List.replicate 6 (some .ok)
               rx := (echo ++ [0xFD] ++ [0xFE, 0xFE, 0xE0, 0x88, 0x03] ++ freqEnc 14652000 ++ [0xFD]).map
                 (fun b => some (.byte b)), drawn := 0 } },
    encode .freqRd, [0xFE, 0xFE, 0xE0, 0x88, 0x03], ⟨rfl, rfl⟩, rfl, rfl, by decide, ?_, ?_, by decide, rfl, rfl, by simp⟩ <;>
    revert echo <;> decide

/-- Every operation the statement names, with operands at the ends of their ranges, completes its first step. -/
theorem witness_WireShowsTheCommand :
    State.reset.Ready ∧ ∀ i ∈ [Instr.pwrOff, .pwrOn 4, .vfoA, .vfoB, .memMode, .memBank 1, .memBank 5, .memChan false 99,
      .memChan true 0, .freqRd, .freqSet 999999999, .modeRd, .modeSet 9, .pttRx, .pttTx], ∃ t, exec i State.reset = .next t := by
  refine ⟨⟨rfl, rfl⟩, ?_⟩
  intro i hi
  simp only [List.mem_cons, List.not_mem_nil, or_false] at hi
  rcases hi with rfl | rfl | rfl | rfl | rfl | rfl | rfl | rfl | rfl | rfl | rfl | rfl | rfl | rfl | rfl <;> exact ⟨_, rfl⟩

/-- A frame of every row, those with open bytes at the ends of their constraints. -/
theorem witness_WireRowsAgreeWithTheReading :
    ∀ row ∈ wireRows, ∃ f ∈ [[0xFE, 0xFE, 0x88, 0xE0, 0x18, 0x00, 0xFD], [0xFE, 0xFE, 0x88, 0xE0, 0x18, 0x01, 0xFD], vfoFrame,
        [0xFE, 0xFE, 0x88, 0xE0, 0x07, 0x01, 0xFD], [0xFE, 0xFE, 0x88, 0xE0, 0x08, 0xFD],
        [0xFE, 0xFE, 0x88, 0xE0, 0x08, 0xA0, 0x05, 0xFD], [0xFE, 0xFE, 0x88, 0xE0, 0x08, 0x99, 0xFD],
        [0xFE, 0xFE, 0x88, 0xE0, 0x08, 0x01, 0x00, 0xFD], freqFrame, [0xFE, 0xFE, 0x88, 0xE0, 0x04, 0xFD],
        [0xFE, 0xFE, 0x88, 0xE0, 0x00, 0x99, 0x99, 0x99, 0x99, 0x09, 0xFD], [0xFE, 0xFE, 0x88, 0xE0, 0x06, 0x17, 0xFD],
        [0xFE, 0xFE, 0x88, 0xE0, 0x1C, 0x00, 0x00, 0xFD], [0xFE, 0xFE, 0x88, 0xE0, 0x1C, 0x00, 0x01, 0xFD]],
      row.belongs f = true := by
  decide

end Sys2Proof.Tests
end

section
/-! PROOFS. The BCD codec's number functions (R92, R93 of `40_bcd_codec.md`): how each acts on one digit, the laws that
follow by recursion on the digits, and the layout of `BCD_BYTES`. -/

namespace Sys2Proof.Machine

/-! ## One digit of each function -/

/-- The lowest nibble of `ENC_BCD(v)` is the lowest decimal digit. -/
@[simp] theorem encBcd_mod_sixteen (v : Nat) : encBcd v % 16 = v % 10 := by
  have := encBcd_eq v
  omega

/-- Dropping the lowest nibble of `ENC_BCD(v)` drops the lowest decimal digit. -/
@[simp] theorem encBcd_div_sixteen (v : Nat) : encBcd v / 16 = encBcd (v / 10) := by
  have := encBcd_eq v
  omega

/-- The nibbles of `ENC_BCD(v)` are the decimal digits of `v`, place by place. -/
theorem encBcd_nibble (v k : Nat) : encBcd v / 16 ^ k % 16 = v / 10 ^ k % 10 := by
  induction k generalizing v with
  | zero => simp
  | succ k ih =>
    rw [pow_succ', pow_succ', ← Nat.div_div_eq_div_mul, ← Nat.div_div_eq_div_mul, encBcd_div_sixteen, ih]

theorem decBcd_mod_ten {x : Nat} (h : x % 16 ≤ 9) : decBcd x % 10 = x % 16 := by
  have := decBcd_eq x
  omega

theorem decBcd_div_ten {x : Nat} (h : x % 16 ≤ 9) : decBcd x / 10 = decBcd (x / 16) := by
  have := decBcd_eq x
  omega

/-! ## The functions as inverses of each other (R92 (a), (b)) -/

theorem decBcd_encBcd (n : Nat) : decBcd (encBcd n) = n := by
  induction n using Nat.strong_induction_on with
  | _ n ih =>
    obtain rfl | hn := Nat.eq_zero_or_pos n
    · rfl
    · rw [decBcd_eq, encBcd_mod_sixteen, encBcd_div_sixteen, ih (n / 10) (by omega), Nat.mod_add_div]

theorem encBcd_decBcd {x : Nat} (h : ∀ k, x / 16 ^ k % 16 ≤ 9) : encBcd (decBcd x) = x := by
  induction x using Nat.strong_induction_on with
  | _ x ih =>
    obtain rfl | hx := Nat.eq_zero_or_pos x
    · rfl
    · have low : x % 16 ≤ 9 := by simpa using h 0
      have high (k : Nat) : x / 16 / 16 ^ k % 16 ≤ 9 := by
        rw [Nat.div_div_eq_div_mul, ← pow_succ']
        exact h (k + 1)
      rw [encBcd_eq, decBcd_mod_ten low, decBcd_div_ten low, ih (x / 16) (by omega) high, Nat.mod_add_div]

theorem encBcd_decBcd_iff (x : Nat) : encBcd (decBcd x) = x ↔ ∀ k, x / 16 ^ k % 16 ≤ 9 := by
  refine ⟨fun h k => ?_, encBcd_decBcd⟩
  have digit : x / 16 ^ k % 16 = decBcd x / 10 ^ k % 10 := by rw [← encBcd_nibble, h]
  omega

/-! ## Bounds (R92 (d), (f)) -/

/-- `ENC_BCD(v)` fits in `k` nibbles exactly when `v` has at most `k` decimal digits. -/
theorem encBcd_lt_pow_iff (v k : Nat) : encBcd v < 16 ^ k ↔ v < 10 ^ k := by
  induction k generalizing v with
  | zero =>
    have zero_iff : encBcd v = 0 ↔ v = 0 :=
      ⟨fun h => by rw [← decBcd_encBcd v, h, decBcd_zero], fun h => by rw [h, encBcd_zero]⟩
    simpa using zero_iff
  | succ k ih =>
    calc encBcd v < 16 ^ (k + 1) ↔ encBcd v / 16 < 16 ^ k := by rw [pow_succ, Nat.div_lt_iff_lt_mul (by decide)]
      _ ↔ v / 10 < 10 ^ k := by rw [encBcd_div_sixteen, ih]
      _ ↔ v < 10 ^ (k + 1) := by rw [pow_succ, Nat.div_lt_iff_lt_mul (by decide)]

/-- `k` nibbles decode to at most `15 + 150 + ... + 15 * 10^(k-1)`, here without the division of the closed form. -/
theorem nine_mul_decBcd_le {x k : Nat} (h : x < 16 ^ k) : 9 * decBcd x + 15 ≤ 15 * 10 ^ k := by
  induction k generalizing x with
  | zero =>
    obtain rfl : x = 0 := by simpa using h
    simp
  | succ k ih =>
    have high := ih (x := x / 16) (by rwa [Nat.div_lt_iff_lt_mul (by decide), ← pow_succ])
    have step := decBcd_eq x
    rw [pow_succ]
    omega

theorem decBcd_le_of_lt_pow {x k : Nat} (h : x < 16 ^ k) : decBcd x ≤ 15 * (10 ^ k - 1) / 9 := by
  have := nine_mul_decBcd_le h
  omega

/-- Settles O17: the inverse laws and the bounds by recursion on the digits, the byte laws from the two-digit forms. -/
theorem bcdLaws : Obligations.BcdLaws := by
  refine ⟨decBcd_encBcd, encBcd_decBcd_iff, by decide, fun b => ?_, fun v hv => ?_, encBcd_lt_pow_iff,
    fun _ _ => decBcd_le_of_lt_pow⟩
  · have hb : b.toNat < 256 := b.isLt
    rw [decBcd_byte]
    omega
  · rw [encBcd_lt_hundred (by omega)]
    omega

/-! ## `BCD_BYTES` (R93) -/

@[simp] theorem bcdBytes_length (v k : Nat) : (bcdBytes v k).length = k := by
  induction k generalizing v with
  | zero => rfl
  | succ k ih => simp [bcdBytes, ih]

/-- Byte `i` holds the digit pair at the place `100^i`. -/
theorem bcdBytes_getElem? {v k i : Nat} (h : i < k) : (bcdBytes v k)[i]? = some (bcdByte (v / 100 ^ i % 100)) := by
  induction k generalizing v i with
  | zero => omega
  | succ k ih =>
    cases i with
    | zero => simp [bcdBytes]
    | succ i => rw [bcdBytes, List.getElem?_cons_succ, ih (by omega), Nat.div_div_eq_div_mul, ← pow_succ']

/-- A digit pair's byte is its `ENC_BCD`: the byte cuts nothing off. -/
theorem bcdByte_toNat_eq_encBcd {d : Nat} (h : d < 100) : (bcdByte d).toNat = encBcd d := by
  rw [bcdByte_toNat h, encBcd_lt_hundred h]

/-- The digit pairs weighted with the powers of 100, from the place `100^j` on. -/
theorem bcdBytes_weighted_sum {v k : Nat} (h : v < 100 ^ k) (j : Nat) :
    ((bcdBytes v k).mapIdx fun i b => decBcd b.toNat * 100 ^ (i + j)).sum = v * 100 ^ j := by
  induction k generalizing v j with
  | zero =>
    obtain rfl : v = 0 := by simpa using h
    simp [bcdBytes]
  | succ k ih =>
    have pair : decBcd (bcdByte (v % 100)).toNat = v % 100 := by
      rw [bcdByte_toNat_eq_encBcd (by omega), decBcd_encBcd]
    have rest := ih (v := v / 100) (by rwa [Nat.div_lt_iff_lt_mul (by decide), ← pow_succ]) (j + 1)
    simp only [bcdBytes, List.mapIdx_cons, List.sum_cons, pair, Nat.zero_add, Nat.add_assoc, Nat.add_comm 1 j, rest]
    calc v % 100 * 100 ^ j + v / 100 * 100 ^ (j + 1) = (v % 100 + 100 * (v / 100)) * 100 ^ j := by ring
      _ = v * 100 ^ j := by rw [Nat.mod_add_div]

/-- Settles O18: every byte is a digit pair, and the weighted sum of the decoded pairs is `v` again. -/
theorem bcdBytesLayout : Obligations.BcdBytesLayout := by
  refine fun v k => ⟨bcdBytes_length v k, fun i hi => ⟨_, bcdBytes_getElem? hi, ?_⟩, fun hv => ?_⟩
  · exact bcdByte_toNat_eq_encBcd (Nat.mod_lt _ (by decide))
  · simpa using bcdBytes_weighted_sum hv 0

end Sys2Proof.Machine
end

section
/-! PROOFS. The Transaction Engine's steps (R122, R125 to R128 of `42_transaction_engine.md`): which engine a phase runs,
what one answered write and one terminator do, and how a complete reply ends the operation. -/

namespace Sys2Proof.Machine

/-! ## The step of each phase (R130) -/

theorem step_of_tx {s : State} (h : s.phase = .tx) : step s = txStep s := by
  simp only [step, h]

theorem step_of_reading {s : State} (h : s.phase = .rxEcho ∨ s.phase = .rxReply) : step s = rxStep s := by
  rcases h with h | h <;> simp only [step, h]

/-! ## Places in the buffers -/

theorem Memory.lt_of_txAt {m : Memory} {i : Nat} {b : Byte} (h : m.txAt i = some b) : i < m.txbuf.length :=
  (List.getElem?_eq_some_iff.1 h).1

/-- No byte follows the one at `i` exactly when `i` is the last place. -/
theorem Memory.txAt_succ_eq_none_iff {m : Memory} {i : Nat} {b : Byte} (h : m.txAt i = some b) :
    m.txAt (i + 1) = none ↔ i + 1 = m.txbuf.length := by
  have := Memory.lt_of_txAt h
  rw [Memory.txAt, List.getElem?_eq_none_iff]
  omega

/-- The register `RXLEN` holds the length of any response within the capacity. -/
theorem State.rxlen_toNat {s : State} (h : s.mem.rxbuf.length ≤ 64) : s.rxlen.toNat = s.mem.rxbuf.length := by
  rw [State.rxlen, BitVec.toNat_ofNat, Nat.mod_eq_of_lt (by omega)]

/-- `TXI` counts up without wrapping while it stands at a byte of `TXBUF`. -/
theorem txi_succ_toNat {s : State} {b : Byte} (hb : s.mem.txAt s.txi.toNat = some b) (hl : s.mem.txbuf.length ≤ 64) :
    (s.txi + 1).toNat = s.txi.toNat + 1 := by
  have := Memory.lt_of_txAt hb
  exact BitVec.toNat_add_of_lt (y := 1) (show s.txi.toNat + 1 < 2 ^ 7 by omega)

/-! ## Phase TX (R122) -/

/-- Settles O38: by the answer; after Ok the next phase turns on whether `TXI` stood at the last byte. -/
theorem txStepByAnswer : Obligations.TxStepByAnswer := by
  intro s b a rest hp hb hl ha
  rw [step_of_tx hp]
  cases a with
  | ok =>
    have last := Memory.txAt_succ_eq_none_iff hb
    exact ⟨_, txStep_ok hb ha, rfl, rfl, sameBuffers_refl rfl, rfl, rfl, rfl, rfl,
      fun _ => ⟨txi_succ_toNat hb hl, rfl, fun h => if_pos (last.1 h), fun h => if_neg (mt last.2 h)⟩, nofun⟩
  | fail =>
    have status : (s.raise .transportUnavailable).status =
        { s.status with busy := false, done := true, err := .transportUnavailable, errph := .tx } := by
      rw [State.raise_status, hp]
    exact ⟨_, txStep_fail hb ha, rfl, rfl, sameBuffers_refl rfl, rfl, rfl, rfl, rfl, nofun,
      fun _ => ⟨rfl, rfl, status⟩⟩

/-! ## The echo's terminator (R125) -/

/-- `ECHO_EQ` compares element by element and in length. -/
theorem echoEqual_iff (echo sent : List Byte) : echoEqual echo sent = true ↔ ∀ i : Nat, echo[i]? = sent[i]? := by
  rw [echoEqual, beq_iff_eq, List.ext_getElem?_iff]

theorem step_echo_terminator {s : State} {rest : List (Option RxAnswer)} (hp : s.phase = .rxEcho)
    (hl : s.mem.rxbuf.length < 64) (ha : s.env.rx = some (.byte 0xFD) :: rest) :
    step s = .next (State.echoCompletion
      { s with
        env := { s.env with rx := rest }
        trace := s.trace ++ [.got (.byte 0xFD)]
        mem := s.mem.pushRx 0xFD }) := by
  rw [step_of_reading (.inl hp), rxStep_answered hl ha]
  exact congrArg _ (rxByte_echo hp)

/-- Settles O40: `ECHOLEN` and `EM` are taken from the echo with its terminator, before `RXBUF` is emptied. -/
theorem echoCompletes : Obligations.EchoCompletes := by
  intro s rest hp hl ha
  refine ⟨_, step_echo_terminator hp hl ha, rfl, ?em, rfl, ?echolen, rfl, fun _ => rfl, fun _ => rfl, rfl, rfl, rfl, rfl,
    rfl, rfl⟩
  case em =>
    rw [State.echoCompletion_status, Bool.not_eq_false']
    exact echoEqual_iff _ _
  case echolen =>
    have pushed : (s.mem.pushRx 0xFD).rxbuf.length = s.mem.rxbuf.length + 1 := by simp
    rw [State.echoCompletion_echolen, State.rxlen_toNat (pushed.trans_le hl), pushed]

/-! ## The reply's terminator (R126 to R128) -/

theorem step_reply_terminator {s : State} {rest : List (Option RxAnswer)} (hp : s.phase = .rxReply)
    (hl : s.mem.rxbuf.length < 64) (ha : s.env.rx = some (.byte 0xFD) :: rest) :
    step s = .next (State.replyCompletion
      { s with
        env := { s.env with rx := rest }
        trace := s.trace ++ [.got (.byte 0xFD)]
        mem := s.mem.pushRx 0xFD }) := by
  rw [step_of_reading (.inr hp), rxStep_answered hl ha]
  exact congrArg _ (rxByte_reply hp)

/-- A complete reply ends every operation with its classification, the error of R179, and the results that the
operation's own interpretation leaves. -/
theorem step_replyDone {s : State} {rest : List (Option RxAnswer)} {v : Verdict} {res : Results}
    (hp : s.phase = .rxReply) (hl : s.mem.rxbuf.length < 64) (ha : s.env.rx = some (.byte 0xFD) :: rest)
    (hi : interpretFor s.latch.opid (classify (s.mem.rxbuf ++ [0xFD])) (s.mem.rxbuf ++ [0xFD]) s.results = (v, res)) :
    ∃ t, step s = .next t ∧
      ReplyDone s t (s.mem.rxbuf ++ [0xFD]) rest (classify (s.mem.rxbuf ++ [0xFD]))
        (finalErr (classify (s.mem.rxbuf ++ [0xFD])) s.status.em v).1
        (finalErr (classify (s.mem.rxbuf ++ [0xFD])) s.status.em v).2 res := by
  refine ⟨_, step_reply_terminator hp hl ha, rfl, ?status, ?results, fun _ => rfl, fun _ => rfl, ⟨rfl, rfl, rfl, rfl⟩, rfl,
    rfl⟩
  all_goals simp only [State.replyCompletion, State.complete, Memory.pushRx_rxbuf, hi]

theorem classify_ok {r : List Byte} (h : r.length = 5) (h4 : r[4]? = some 0xFB) : classify (r ++ [0xFD]) = .ok := by
  rw [classify_status h, if_pos h4]

theorem classify_rejected {r : List Byte} (h : r.length = 5) (h4 : r[4]? = some 0xFA) :
    classify (r ++ [0xFD]) = .rejected := by
  rw [classify_status h, if_neg (by rw [h4]; decide), if_pos h4]

theorem classify_anomalous {r : List Byte} (h : r.length = 5) (hok : r[4]? ≠ some 0xFB) (hng : r[4]? ≠ some 0xFA) :
    classify (r ++ [0xFD]) = .anomalous := by
  rw [classify_status h, if_neg hok, if_neg hng]

/-- EXEC interprets no reply (R126): nothing to object, and the results are kept. -/
theorem interpretFor_execute (o : TxnOutcome) (reply : List Byte) (res : Results) :
    interpretFor 0x20 o reply res = (.fine, res) := rfl

/-- An echo mismatch is reported where the reply itself reports nothing (R179). -/
theorem finalErr_mismatch {o : TxnOutcome} (h : o = .ok ∨ o = .data) :
    finalErr o true .fine = (.echoMismatch, .rxEcho) := by
  rcases h with rfl | rfl <;> rfl

theorem finalErr_clean {o : TxnOutcome} (h : o = .ok ∨ o = .data) :
    finalErr o false .fine = (.noError, .idle) := by
  rcases h with rfl | rfl <;> rfl

/-- Settles O41: the row of R127 is the classification's, the error of R128 follows from it by the priority of R179. -/
theorem execReplyTable : Obligations.ExecReplyTable := by
  intro s rest hp hl ha hop
  obtain ⟨t, hstep, hdone⟩ := step_replyDone hp hl ha (hop ▸ interpretFor_execute _ _ _)
  refine ⟨t, _, _, _, hstep, hdone, classify_data, classify_ok, classify_rejected, classify_anomalous, ?rejected,
    ?anomalous, ?mismatch, ?clean⟩
  case rejected => exact fun ho => by rw [ho]; exact ⟨rfl, rfl⟩
  case anomalous => exact fun ho => by rw [ho]; exact ⟨rfl, rfl⟩
  case mismatch => exact fun ho hem => by rw [hem, finalErr_mismatch ho]; exact ⟨rfl, rfl⟩
  case clean => exact fun ho hem => by rw [hem, finalErr_clean ho]; exact ⟨rfl, rfl⟩

end Sys2Proof.Machine
end

section

/-! PROOFS. Errors (R181 of `60_exceptions.md`): what raising an error writes, and that it writes nothing else. -/

namespace Sys2Proof.Machine

/-- R181 as one record update: every field that is not named here keeps its value. -/
theorem State.raise_eq_update (e : ErrCode) (s : State) :
    s.raise e =
      { s with
        status := { s.status with err := e, errph := s.phase, busy := false, done := true }
        phase := .idle } := rfl

/-- Settles O47: what is recorded is read off `STATUS` after the error; the frame is the update undone on the five
values it writes. -/
theorem raiseRecordsAndCompletes : Obligations.RaiseRecordsAndCompletes := by
  intro s e
  refine ⟨?err, ?errph, ?busy, ?done, State.raise_phase e s, ?frame⟩
  case frame => rw [State.raise_eq_update]
  all_goals rw [State.raise_status]

end Sys2Proof.Machine
end

section

/-! PROOFS. Reset (R200, R201 of `70_reset_and_hazards.md`): what the zero values of reset read as, and that an empty buffer
gives no element a value. -/

namespace Sys2Proof.Machine

/-! ## The zero values as the registers read them (R32, R14) -/

/-- R32: the cleared `STATUS` reads as the word 0. -/
@[simp] theorem statusWord_zero : statusWord Status.zero = 0x0000 := rfl

@[simp] theorem bytes5List_zero : bytes5List Bytes5.zero = List.replicate 5 0 := rfl

theorem eq_zero_of_getElem?_bytes5List_zero {i : Nat} {b : Byte} (h : (bytes5List Bytes5.zero)[i]? = some b) : b = 0 := by
  rw [bytes5List_zero] at h
  exact List.eq_of_mem_replicate (List.mem_of_getElem? h)

/-! ## No value at or above the lengths (R17, R18, R201) -/

theorem Memory.txAt_eq_none_iff (m : Memory) (i : Nat) : m.txAt i = none ↔ m.txbuf.length ≤ i :=
  List.getElem?_eq_none_iff

theorem Memory.rxAt_eq_none_iff (m : Memory) (i : Nat) : m.rxAt i = none ↔ m.rxbuf.length ≤ i :=
  List.getElem?_eq_none_iff

/-! ## The fields of the state after reset -/

@[simp] theorem State.reset_phase : State.reset.phase = .idle := rfl
@[simp] theorem State.reset_status : State.reset.status = Status.zero := rfl
@[simp] theorem State.reset_results : State.reset.results = Results.zero := rfl
@[simp] theorem State.reset_txbuf : State.reset.mem.txbuf = [] := rfl
@[simp] theorem State.reset_rxbuf : State.reset.mem.rxbuf = [] := rfl

/-- Settles O1: the registers hold their value by definition; the `RES_BYTES` are read off five zeros, and every index is
at or above the length of an empty buffer. -/
theorem resetRegisters : Obligations.ResetRegisters := by
  refine ⟨State.reset_phase, ?status, ?txlen, rfl, ?rxlen, rfl, rfl, ?resBytes, rfl, rfl, rfl, rfl, rfl, rfl, ?txAt, ?rxAt⟩
  case status => rw [State.reset_status, statusWord_zero]
  case txlen => simp [State.txlen]
  case rxlen => simp [State.rxlen]
  case resBytes =>
    rw [State.reset_results]
    exact fun _ _ h => eq_zero_of_getElem?_bytes5List_zero h
  case txAt => exact fun i => (Memory.txAt_eq_none_iff _ i).2 (by simp)
  case rxAt => exact fun i => (Memory.rxAt_eq_none_iff _ i).2 (by simp)

end Sys2Proof.Machine
end

section

/-! PROOFS. The request encoding (R12, R67, R78 of `30_encoding.md` and `10_state.md`): how the lines of a record lie in one
number and are cut out again, that an operation's record decodes to the operation whatever the other lines carry, and what
a decoded record says of its own lines. -/

namespace Sys2Proof

/-! ## One line lowest in a number (log entry 5) -/

section Fields

variable {w : Nat} (x : BitVec w) (rest : Nat)

theorem ofNat_lowest_line : BitVec.ofNat w (x.toNat + 2 ^ w * rest) = x := by
  apply BitVec.eq_of_toNat_eq
  rw [BitVec.toNat_ofNat, Nat.add_mul_mod_self_left, Nat.mod_eq_of_lt x.isLt]

theorem drop_lowest_line : (x.toNat + 2 ^ w * rest) / 2 ^ w = rest := by
  rw [Nat.add_mul_div_left _ _ (Nat.two_pow_pos w), Nat.div_eq_of_lt x.isLt, Nat.zero_add]

theorem lowest_line_lt {rest k : Nat} (h : rest < 2 ^ k) : x.toNat + 2 ^ w * rest < 2 ^ (w + k) := by
  have hx := x.isLt
  calc x.toNat + 2 ^ w * rest < 2 ^ w * (rest + 1) := by rw [Nat.mul_succ]; omega
    _ ≤ 2 ^ w * 2 ^ k := Nat.mul_le_mul_left _ h
    _ = 2 ^ (w + k) := (pow_add 2 w k).symm

end Fields

/-- A flag is a line of one bit. -/
theorem bitNat_eq_toNat (b : Bool) : bitNat b = (BitVec.ofBool b).toNat := by
  cases b <;> rfl

theorem lowest_flag (b : Bool) (rest : Nat) : (((BitVec.ofBool b).toNat + 2 ^ 1 * rest) % 2 == 1) = b := by
  cases b <;> simp

theorem lowest_flag_lt (b : Bool) {rest k : Nat} (h : rest < 2 ^ k) : bitNat b + 2 ^ 1 * rest < 2 ^ (1 + k) := by
  rw [bitNat_eq_toNat]
  exact lowest_line_lt _ h

theorem bytesOfNat_bytesToNat (bs : List Byte) : bytesOfNat bs.length (bytesToNat bs) = bs := by
  induction bs with
  | nil => rfl
  | cons b bs ih => rw [List.length_cons, bytesOfNat, bytesToNat, ofNat_lowest_line, drop_lowest_line, ih]

theorem bytesToNat_lt (bs : List Byte) : bytesToNat bs < 2 ^ (8 * bs.length) := by
  induction bs with
  | nil => exact Nat.one_pos
  | cons b bs ih =>
    rw [List.length_cons, Nat.mul_succ, Nat.add_comm]
    exact lowest_line_lt b ih

/-! ## Records and words -/

theorem Request.wellFormed_iff (r : Request) : r.wellFormed = true ↔ r.data.length = Config.dataMax := beq_iff_eq

theorem Request.ofWord_toWord {r : Request} (h : r.wellFormed = true) : Request.ofWord r.toWord = r := by
  have data : bytesOfNat Config.dataMax (bytesToNat r.data) = r.data := by
    rw [← (Request.wellFormed_iff r).1 h, bytesOfNat_bytesToNat]
  -- `delta`, because the definition's equation lemma would evaluate the products of powers of two
  delta Request.toWord
  simp only [Request.ofWord, bitNat_eq_toNat, drop_lowest_line, ofNat_lowest_line, lowest_flag, data]

theorem Request.toWord_lt {r : Request} (h : r.wellFormed = true) : r.toWord < 2 ^ requestBits := by
  have data : bytesToNat r.data < 2 ^ (8 * Config.dataMax) := by
    rw [← (Request.wellFormed_iff r).1 h]
    exact bytesToNat_lt r.data
  have fields := lowest_line_lt r.opid <| lowest_line_lt r.x <| lowest_line_lt r.v <| lowest_line_lt r.n <|
    lowest_line_lt r.b.b0 <| lowest_line_lt r.b.b1 <| lowest_line_lt r.b.b2 <| lowest_line_lt r.b.b3 <|
    lowest_line_lt r.b.b4 <| lowest_line_lt r.modeSel <| lowest_line_lt r.baudSel <| lowest_flag_lt r.chanKind <|
    lowest_line_lt r.chanVal <| lowest_line_lt r.bank <| lowest_line_lt r.cmd <| lowest_flag_lt r.hasSub <|
    lowest_line_lt r.sub <| lowest_line_lt r.dlen data
  exact fields.trans_eq (by rw [requestBits]; simp only [← Nat.add_assoc])

/-- Settles O12: each line is cut out where it was put in, and the widths add up. -/
theorem requestRecordsRoundTrip : Obligations.RequestRecordsRoundTrip :=
  fun _ h => ⟨Request.ofWord_toWord h, Request.toWord_lt h⟩

/-! ## Operations and records (R12, R67) -/

/-- The operation's own lines decide what a record decodes to. -/
theorem decode_drive (i : Instr) (r : Request) : decode (i.drive r) = .ok i := by
  cases i <;> rfl

/-- Settles O14: `decode` reads `OPID` and the lines that `drive` has written. -/
theorem unusedLinesAreIgnored : Obligations.UnusedLinesAreIgnored := decode_drive

theorem Instr.drive_wellFormed {i : Instr} {r : Request} (hi : i.wellFormed = true) (hr : r.wellFormed = true) :
    (i.drive r).wellFormed = true := by
  cases i with
  | build cmd hasSub sub dlen data => exact hi
  | _ => exact hr

/-- Settles O13: the record of a well-formed operation is read back from its word, and decodes to the operation. -/
theorem everyRequestDecodesFromItsWord : Obligations.EveryRequestDecodesFromItsWord := by
  intro i hi
  have hwf : (encode i).wellFormed = true := Instr.drive_wellFormed hi rfl
  rw [decodeTableWord, encodeWord, Nat.mod_eq_of_lt (Request.toWord_lt hwf), decodeWord, Request.ofWord_toWord hwf,
    encode, decode_drive]

/-- Settles O11: each word is laid out in the row's bits and decoded. -/
theorem writtenOutRequestsDecode : Obligations.WrittenOutRequestsDecode := by
  unfold Obligations.WrittenOutRequestsDecode
  decide

/-- A record that decodes to an operation drives that operation's lines. -/
theorem drive_of_decode {i : Instr} {r : Request} (h : decode r = .ok i) : i.drive r = r := by
  simp only [decode, ite_eq_iff, Except.ok.injEq, reduceCtorEq, and_false, or_false] at h
  iterate 23
    rcases h with ⟨hop, rfl⟩ | ⟨-, h⟩
    · rw [Instr.drive, ← hop]
  obtain ⟨hop, rfl⟩ := h
  rw [Instr.drive, ← hop]

/-- What a record drives for an operation it leaves for that operation: its lines have the width R12 gives them. -/
theorem wellFormed_of_drive {i : Instr} {r : Request} (h : i.drive r = r) (hr : r.wellFormed = true) :
    i.wellFormed = true := by
  cases i with
  | build cmd hasSub sub dlen data =>
    rw [← h] at hr
    exact hr
  | _ => rfl

/-- The operation numbers of R67. -/
def listedOpids : List Nat :=
  [0x01, 0x02, 0x03, 0x04, 0x05, 0x06, 0x07, 0x08, 0x10, 0x11, 0x20, 0x30, 0x31, 0x32, 0x33, 0x34, 0x35, 0x36, 0x37, 0x38,
    0x39, 0x3A, 0x3B, 0x3C]

theorem Instr.drive_opid_listed (i : Instr) (r : Request) : (i.drive r).opid.toNat ∈ listedOpids := by
  cases i <;> exact of_decide_eq_true rfl

/-- A number that R67 does not list is rejected by the decoder (R78). -/
theorem decode_reserved {r : Request} (h : r.opid.toNat ∉ listedOpids) : ∃ e, decode r = .error e := by
  cases hd : decode r with
  | error e => exact ⟨e, rfl⟩
  | ok i => exact absurd (drive_of_decode hd ▸ i.drive_opid_listed r) h

end Sys2Proof
end

section

/-! PROOFS. The BCD codec's loops, the frequency codec and the mode table (R72, R90, R91, R95, R96 of `40_bcd_codec.md`):
what one round of each loop adds, and each table function as the inverse of its partner. -/

namespace Sys2Proof.Machine

/-! ## The loops of R90 and R91 -/

/-- The loop of R90 from any round on: what is accumulated, and the nibbles left at their places. -/
theorem decBcdLoop_eq {x fuel : Nat} (h : x ≤ fuel) (acc place : Nat) :
    decBcdLoop fuel acc place x = acc + place * decBcd x := by
  induction fuel generalizing x acc place with
  | zero =>
    obtain rfl : x = 0 := by omega
    rfl
  | succ fuel ih =>
    rw [decBcdLoop]
    split
    · next hx => rw [hx, decBcd_zero, Nat.mul_zero, Nat.add_zero]
    · have nibble : x &&& 0xF = x % 16 := Nat.and_two_pow_sub_one_eq_mod x 4
      have shifted : x >>> 4 = x / 16 := Nat.shiftRight_eq_div_pow x 4
      rw [nibble, shifted, ih (by omega), decBcd_eq x]
      ring

/-- Settles O15: the loop from its first round on. -/
theorem decBcdIsTheLoop : Obligations.DecBcdIsTheLoop := by
  intro x fuel h
  rw [decBcdLoop_eq h, Nat.zero_add, Nat.one_mul]

/-- A digit put above everything accumulated so far. -/
theorem or_shiftLeft_eq_add {acc shift : Nat} (h : acc < 2 ^ shift) (d : Nat) :
    acc ||| d <<< shift = acc + 2 ^ shift * d := by
  rw [Nat.or_comm, ← Nat.shiftLeft_add_eq_or_of_lt h, Nat.shiftLeft_eq, Nat.mul_comm, Nat.add_comm]

/-- The loop of R91 from any round on: what is accumulated below `shift`, and the digits left above it. -/
theorem encBcdLoop_eq {v fuel : Nat} (h : v ≤ fuel) {acc shift : Nat} (hacc : acc < 2 ^ shift) :
    encBcdLoop fuel acc shift v = acc + 2 ^ shift * encBcd v := by
  induction fuel generalizing v acc shift with
  | zero =>
    obtain rfl : v = 0 := by omega
    rfl
  | succ fuel ih =>
    rw [encBcdLoop]
    split
    · next hv => rw [hv, encBcd_zero, Nat.mul_zero, Nat.add_zero]
    · have next : acc + 2 ^ shift * (v % 10) < 2 ^ (shift + 4) := by
        rw [pow_add]
        have := Nat.mul_le_mul_left (2 ^ shift) (show v % 10 ≤ 15 by omega)
        omega
      rw [or_shiftLeft_eq_add hacc, ih (by omega) next, encBcd_eq v, pow_add]
      ring

/-- Settles O16: the loop from its first round on; a nibble of the result is a decimal digit. -/
theorem encBcdIsTheLoop : Obligations.EncBcdIsTheLoop := by
  refine ⟨fun v fuel h => ?_, fun v k => ?_⟩
  · rw [encBcdLoop_eq h Nat.one_pos, Nat.zero_add, pow_zero, Nat.one_mul]
  · rw [encBcd_nibble]
    omega

/-! ## Frequencies (R94, R95) -/

theorem decBcd_bcdByte {d : Nat} (h : d < 100) : decBcd (bcdByte d).toNat = d := by
  rw [bcdByte_toNat_eq_encBcd h, decBcd_encBcd]

/-- The payload of a frequency in five registers. -/
theorem freqEnc_eq_bytes5List (n : Nat) : freqEnc n = bytes5List (bytes5Of (freqEnc n)) := by
  rw [freqEnc_eq]
  rfl

theorem freqDec_bytes5Of_freqEnc {n : Nat} (h : n ≤ 999999999) : freqDec (bytes5Of (freqEnc n)) = n := by
  have pair (m : Nat) : decBcd (bcdByte (m % 100)).toNat = m % 100 := decBcd_bcdByte (by omega)
  rw [freqDec_eq, freqEnc_eq]
  simp only [bytes5Of, List.getD_cons_zero, List.getD_cons_succ, pair]
  omega

/-- A packed byte decodes to at most 15 tens and 15 ones. -/
theorem decBcd_byte_le (b : Byte) : decBcd b.toNat ≤ 165 := by
  have hb : b.toNat < 256 := b.isLt
  rw [decBcd_byte]
  omega

theorem freqDec_le (b : Bytes5) : freqDec b ≤ 16666666665 := by
  have h0 := decBcd_byte_le b.b0
  have h1 := decBcd_byte_le b.b1
  have h2 := decBcd_byte_le b.b2
  have h3 := decBcd_byte_le b.b3
  have h4 := decBcd_byte_le b.b4
  rw [freqDec_eq]
  omega

/-- Settles O19: the digit pairs of a frequency weighted again, and the largest nibbles in every byte. -/
theorem frequencyRoundTrip : Obligations.FrequencyRoundTrip :=
  ⟨fun n h => ⟨bytes5Of (freqEnc n), freqEnc_eq_bytes5List n, freqDec_bytes5Of_freqEnc h⟩, freqDec_le⟩

/-- The weighted sum of ten nibbles fits `RES_VALUE` (R14, R95). -/
theorem freqDec_register (b : Bytes5) : (BitVec.ofNat 34 (freqDec b)).toNat = freqDec b := by
  have := freqDec_le b
  rw [BitVec.toNat_ofNat, Nat.mod_eq_of_lt (by omega)]

/-- The weighted sum of R95, nibble by nibble. -/
theorem freqDec_nibbles (b : Bytes5) :
    freqDec b = (10 * (b.b0.toNat / 16) + b.b0.toNat % 16) + 100 * (10 * (b.b1.toNat / 16) + b.b1.toNat % 16) +
      10000 * (10 * (b.b2.toNat / 16) + b.b2.toNat % 16) + 1000000 * (10 * (b.b3.toNat / 16) + b.b3.toNat % 16) +
      100000000 * (10 * (b.b4.toNat / 16) + b.b4.toNat % 16) := by
  simp only [freqDec_eq, decBcd_byte]
  ring

/-- Byte `k` of a payload is the digit pair of `100^k`, the tens digit in the high nibble (R94). -/
theorem freqEnc_digit_pair (n : Nat) {k : Nat} (hk : k < 5) :
    ∃ c, (bytes5List (bytes5Of (freqEnc n)))[k]? = some c ∧
      c.toNat / 16 = n / 100 ^ k / 10 % 10 ∧ c.toNat % 16 = n / 100 ^ k % 10 := by
  have pair := bcdByte_toNat (v := n / 100 ^ k % 100) (Nat.mod_lt _ (by decide))
  refine ⟨bcdByte (n / 100 ^ k % 100), ?_, by omega, by omega⟩
  rw [← freqEnc_eq_bytes5List]
  exact bcdBytes_getElem? hk

/-! ## The mode table (R72, R96) -/

/-- The wire code of a selector names the selector. -/
theorem modeName_of_code {c : Byte} {sel : BitVec 4} (hc : c.toNat = if sel = 9 then 0x17 else sel.toNat)
    (hs : sel.toNat ≤ 9) : modeName c = some sel := by
  split at hc
  · next h9 =>
    rw [h9, show c = 0x17 from BitVec.eq_of_toNat_eq hc, modeName_dv]
  · next h9 =>
    have hne : sel.toNat ≠ 9 := fun e => h9 (BitVec.eq_of_toNat_eq e)
    rw [modeName_low (by omega), hc, BitVec.ofNat_toNat, BitVec.setWidth_eq]

/-- A byte with a name is the wire code of that name's selector. -/
theorem code_of_modeName {b : Byte} {sel : BitVec 4} (h : modeName b = some sel) :
    sel.toNat ≤ 9 ∧ b.toNat = if sel = 9 then 0x17 else sel.toNat := by
  by_cases hlow : b.toNat ≤ 8
  · rw [modeName_low hlow] at h
    cases h
    have hsel : (BitVec.ofNat 4 b.toNat).toNat = b.toNat := by
      rw [BitVec.toNat_ofNat, Nat.mod_eq_of_lt (by omega)]
    have h9 : BitVec.ofNat 4 b.toNat ≠ 9 := fun e => by
      rw [e] at hsel
      exact absurd (hsel ▸ hlow) (by decide)
    rw [if_neg h9, hsel]
    omega
  · by_cases hdv : b = 0x17
    · rw [hdv, modeName_dv] at h
      cases h
      rw [hdv]
      decide
    · rw [modeName_unknown (by omega) hdv] at h
      cases h

/-- Settles O20: a legal selector has a code, which names it; and a byte's name has only that byte as its code. -/
theorem modeTableRoundTrip : Obligations.ModeTableRoundTrip := by
  refine ⟨fun sel hs => ?_, modeCode_illegal, fun b sel h => ?_⟩
  · obtain ⟨c, hc, hv⟩ := modeCode_legal sel hs
    exact ⟨c, hc, modeName_of_code hv hs⟩
  · obtain ⟨hs, hb⟩ := code_of_modeName h
    obtain ⟨c, hc, hv⟩ := modeCode_legal sel hs
    exact ⟨hs, hc.trans (congrArg some (BitVec.eq_of_toNat_eq (hv.trans hb.symm)))⟩

end Sys2Proof.Machine
end

section

/-! PROOFS. Acceptance (R25, R120, R130): what each operation does after it, and the two ends the acceptance step can have:
the operation has completed, or its transaction begins. -/

namespace Sys2Proof.Machine

/-! ## What follows acceptance -/

/-- What an operation does from the state after its acceptance. -/
def bodyOf : Instr → State → State
  | .bcdDec x => State.completeValue (decBcd x.toNat)
  | .bcdEnc v => State.completeValue (encBcd v.toNat)
  | .freqEnc n => State.refuseUnless (freqBytes n) State.completeBytes
  | .freqDec b => State.completeValue (freqDec b)
  | .modeEnc sel => State.refuseUnless (modeCode sel) fun c => State.completeBytes [c]
  | .modeDec b0 => State.completeMode b0
  | .chanEnc special val => State.refuseUnless (chanBytes special val) State.completeBytes
  | .bankEnc bank => State.refuseUnless (bankByte bank) fun c => State.completeBytes [c]
  | .build cmd hasSub sub dlen data => State.buildFrame cmd (buildSub hasSub sub) dlen data
  | .buildPwron baud => State.refuseUnless (leadinCount baud) fun k s =>
      State.complete (s.loadTx (withLeadin k (s.frameFor 0x18 (some Config.pwrOnSub) [])))
  | .execute => State.executeBuilt
  | .pwrOff => State.command 0 0x18 (some Config.pwrOffSub) []
  | .pwrOn baud => State.refuseUnless (leadinCount baud) fun k => State.command k 0x18 (some Config.pwrOnSub) []
  | .vfoA => State.command 0 0x07 (some Config.vfoASub) []
  | .vfoB => State.command 0 0x07 (some Config.vfoBSub) []
  | .memMode => State.command 0 0x08 none []
  | .memBank bank => State.refuseUnless (bankByte bank) fun c => State.command 0 0x08 (some 0xA0) [c]
  | .memChan special val => State.refuseUnless (chanBytes special val) fun d => State.command 0 0x08 none d
  | .freqRd => State.command 0 0x03 none []
  | .freqSet n => State.refuseUnless (freqBytes n) fun d => State.command 0 0x00 none d
  | .modeRd => State.command 0 0x04 none []
  | .modeSet sel => State.refuseUnless (modeCode sel) fun c => State.command 0 0x06 none [c]
  | .pttRx => State.command 0 0x1C (some 0x00) [0x00]
  | .pttTx => State.command 0 0x1C (some 0x00) [0x01]

/-- Every operation is one body after acceptance. -/
theorem exec_eq_onAccept (i : Instr) (s : State) : exec i s = s.onAccept i (bodyOf i) := by
  cases i <;> rfl

theorem exec_ready {s : State} (h : s.Ready) (i : Instr) : exec i s = .next (bodyOf i (s.accept i)) := by
  rw [exec_eq_onAccept, onAccept_ready h]

theorem exec_held {s : State} (h : ¬ s.Ready) (i : Instr) : exec i s = .next s := by
  rw [exec_eq_onAccept, onAccept_held h]

/-- Settles O10: the body is performed in a ready block, and the request held in every other. -/
theorem everyRequestAnswersNext : Obligations.EveryRequestAnswersNext := by
  intro i s
  by_cases h : s.Ready
  · exact ⟨_, exec_ready h i⟩
  · exact ⟨s, exec_held h i⟩

/-! ## The step in IDLE -/

theorem step_waiting {s : State} (h : s.Ready) (hp : s.port = []) : step s = .next s := by
  simp [step, State.fetch, h.1, h.2, hp]

theorem step_presented {s : State} {r : Request} {rest : List Request} {i : Instr} (h : s.Ready)
    (hp : s.port = r :: rest) (hd : decode r = .ok i) : step s = exec i { s with port := rest, latch := r } := by
  simp [step, State.fetch, h.1, h.2, hp, hd]

theorem step_reserved {s : State} {r : Request} {rest : List Request} {e : DecodeError} (h : s.Ready)
    (hp : s.port = r :: rest) (hd : decode r = .error e) :
    step s = .next (State.refuseReserved { s with port := rest, latch := r }) := by
  simp [step, State.fetch, h.1, h.2, hp, hd]

/-- Settles O8. -/
theorem idleBlockWaits : Obligations.IdleBlockWaits := fun _ => step_waiting

/-- Settles O5: the decoded record has driven its operation's own lines. -/
theorem stepRunsPresentedRequest : Obligations.StepRunsPresentedRequest :=
  fun _ _ _ _ h hp hd =>
    ⟨step_presented h hp hd, drive_of_decode hd, fun hr => wellFormed_of_drive (drive_of_decode hd) hr⟩

/-! ## The operation has completed (R25, R33, R182) -/

/-- The operation `i`, accepted in `s`, has completed without a transaction, with error `e` and results `res`; `TXBUF`
holds `f`. -/
def State.quietEnd (i : Instr) (e : ErrCode) (res : Results) (f : List Byte) (s : State) : State :=
  { s.accept i with results := res, status := Status.finished e, mem := s.mem.setTx f, phase := .idle }

section QuietEnd

variable (i : Instr) (e : ErrCode) (res : Results) (f : List Byte) (s : State)

@[simp] theorem State.quietEnd_latch : (s.quietEnd i e res f).latch = i.drive s.latch := rfl
@[simp] theorem State.quietEnd_results : (s.quietEnd i e res f).results = res := rfl
@[simp] theorem State.quietEnd_mem : (s.quietEnd i e res f).mem = s.mem.setTx f := rfl
@[simp] theorem State.quietEnd_txi : (s.quietEnd i e res f).txi = s.txi := rfl
@[simp] theorem State.quietEnd_echolen : (s.quietEnd i e res f).echolen = s.echolen := rfl
@[simp] theorem State.quietEnd_phase : (s.quietEnd i e res f).phase = .idle := rfl
@[simp] theorem State.quietEnd_status : (s.quietEnd i e res f).status = Status.finished e := rfl
@[simp] theorem State.quietEnd_port : (s.quietEnd i e res f).port = s.port := rfl
@[simp] theorem State.quietEnd_env : (s.quietEnd i e res f).env = s.env := rfl
@[simp] theorem State.quietEnd_trace : (s.quietEnd i e res f).trace = [] := rfl

variable {i e res f s}

theorem completedQuietly_quietEnd : CompletedQuietly s (s.quietEnd i e res f) e (i.drive s.latch) res :=
  ⟨rfl, rfl, rfl, rfl, rfl, rfl, rfl, rfl, rfl⟩

theorem sameBuffers_quietEnd : SameBuffers s (s.quietEnd i e res s.mem.txbuf) := sameBuffers_refl rfl

theorem codecDone_quietEnd : CodecDone s (s.quietEnd i .noError res s.mem.txbuf) (i.drive s.latch) res :=
  ⟨completedQuietly_quietEnd, sameBuffers_quietEnd⟩

theorem refused_quietEnd : Refused s (s.quietEnd i .unsupportedValue Results.zero s.mem.txbuf) (i.drive s.latch) :=
  ⟨completedQuietly_quietEnd, sameBuffers_quietEnd⟩

/-- An error before any I/O, charged to IDLE (R182). -/
theorem raise_accept (h : s.Ready) : (s.accept i).raise e = s.quietEnd i e Results.zero s.mem.txbuf := by
  rw [State.raise_eq_update, State.accept_phase, h.1]
  rfl



theorem completeBytes_accept (bs : List Byte) :
    (s.accept i).completeBytes bs =
      s.quietEnd i .noError { Results.zero with bytes := bytes5Of bs, blen := BitVec.ofNat 3 bs.length } s.mem.txbuf :=
  rfl

theorem complete_loadTx_accept :
    State.complete ((s.accept i).loadTx f) = s.quietEnd i .noError Results.zero f := rfl

end QuietEnd

/-! ## The transaction begins (R121, R150) -/

/-- The operation `i`, accepted in `s`, is about to send the sequence `f`. -/
def State.begun (i : Instr) (f : List Byte) (s : State) : State :=
  { s.accept i with mem := { txbuf := f, rxbuf := [] }, echolen := 0, txi := 0, phase := .tx }

section Begun

variable (i : Instr) (f : List Byte) (s : State)

@[simp] theorem State.begun_latch : (s.begun i f).latch = i.drive s.latch := rfl
@[simp] theorem State.begun_results : (s.begun i f).results = Results.zero := rfl
@[simp] theorem State.begun_mem : (s.begun i f).mem = { txbuf := f, rxbuf := [] } := rfl
@[simp] theorem State.begun_txi : (s.begun i f).txi = 0 := rfl
@[simp] theorem State.begun_echolen : (s.begun i f).echolen = 0 := rfl
@[simp] theorem State.begun_phase : (s.begun i f).phase = .tx := rfl
@[simp] theorem State.begun_status : (s.begun i f).status = Status.accepted := rfl
@[simp] theorem State.begun_port : (s.begun i f).port = s.port := rfl
@[simp] theorem State.begun_env : (s.begun i f).env = s.env := rfl
@[simp] theorem State.begun_trace : (s.begun i f).trace = [] := rfl

variable {i f s}

theorem txnBegun_begun (h : f.length ≤ 64) : TxnBegun s (s.begun i f) (i.drive s.latch) f where
  phase := rfl
  status := rfl
  latch := rfl
  results := rfl
  txbytes _ := rfl
  txlen := by
    rw [State.txlen, BitVec.toNat_ofNat]
    exact Nat.mod_eq_of_lt (by simp only [State.begun_mem]; omega)
  rxbytes _ := rfl
  rxlen := rfl
  txi := rfl
  echolen := rfl
  port := rfl
  env := rfl
  trace := rfl



end Begun

/-! ## Which operations send, and what (R74, R121) -/



/-- The operation sends `f`: `f` is loaded, and its transaction begins. -/
theorem exec_sends {s : State} {i : Instr} {f : List Byte} (h : s.Ready) (hf : sequenceOf s i = some f) :
    exec i s = .next (s.begun i f) := by
  rw [exec_ready h]
  apply congrArg
  cases i with
  | execute =>
    simp only [sequenceOf, Option.ite_none_left_eq_some, Option.some.injEq] at hf
    obtain ⟨hne, rfl⟩ := hf
    exact if_neg hne
  | pwrOn baud =>
    obtain ⟨k, hk, rfl⟩ := Option.map_eq_some_iff.1 hf
    rw [bodyOf, hk]
    rfl
  | memBank bank =>
    simp only [sequenceOf, Option.ite_none_right_eq_some, Option.some.injEq] at hf
    obtain ⟨hb, rfl⟩ := hf
    rw [bodyOf, bankByte_legal hb]
    rfl
  | memChan special val =>
    obtain ⟨d, hd, rfl⟩ := Option.map_eq_some_iff.1 hf
    rw [bodyOf, hd]
    rfl
  | freqSet n =>
    simp only [sequenceOf, Option.ite_none_right_eq_some, Option.some.injEq] at hf
    obtain ⟨hn, rfl⟩ := hf
    rw [bodyOf, freqBytes_legal hn]
    rfl
  | modeSet sel =>
    obtain ⟨c, hc, rfl⟩ := Option.map_eq_some_iff.1 hf
    rw [bodyOf, hc]
    rfl
  | bcdDec | bcdEnc | freqEnc | freqDec | modeEnc | modeDec | chanEnc | bankEnc | build | buildPwron => cases hf
  | pwrOff | vfoA | vfoB | memMode | freqRd | modeRd | pttRx | pttTx => cases hf; rfl

/-- Operands that R176 names are refused. -/
theorem exec_refuses {s : State} {i : Instr} (h : s.Ready) (hi : IllegalOperands s i) :
    exec i s = .next (s.quietEnd i .unsupportedValue Results.zero s.mem.txbuf) := by
  rw [exec_ready h, ← raise_accept h]
  apply congrArg
  have chan {special : Bool} {val : Byte} (hi : if special then val ≠ 0 else val.toNat > 99) :
      chanBytes special val = none := by
    cases special with
    | true => exact chanBytes_special_illegal hi
    | false => exact chanBytes_integer_illegal hi
  cases i with
  | freqEnc n => rw [bodyOf, freqBytes_illegal hi, refuseUnless_none]
  | freqSet n => rw [bodyOf, freqBytes_illegal hi, refuseUnless_none]
  | modeEnc sel => rw [bodyOf, modeCode_illegal sel hi, refuseUnless_none]
  | modeSet sel => rw [bodyOf, modeCode_illegal sel hi, refuseUnless_none]
  | chanEnc special val => rw [bodyOf, chan hi, refuseUnless_none]
  | memChan special val => rw [bodyOf, chan hi, refuseUnless_none]
  | bankEnc bank => rw [bodyOf, bankByte_illegal (by unfold IllegalOperands at hi; omega), refuseUnless_none]
  | memBank bank => rw [bodyOf, bankByte_illegal (by unfold IllegalOperands at hi; omega), refuseUnless_none]
  | build cmd hasSub sub dlen data => exact buildFrame_illegal hi
  | buildPwron baud => rw [bodyOf, leadinCount_illegal baud hi, refuseUnless_none]
  | pwrOn baud => rw [bodyOf, leadinCount_illegal baud hi, refuseUnless_none]
  | execute => exact if_pos hi
  | bcdDec | bcdEnc | freqDec | modeDec | pwrOff | vfoA | vfoB | memMode | freqRd | modeRd | pttRx | pttTx =>
    exact hi.elim

/-- Settles O31: a refusal is an end before any I/O. -/
theorem illegalOperandsRefused : Obligations.IllegalOperandsRefused :=
  fun _ _ h hi => ⟨_, exec_refuses h hi, refused_quietEnd⟩

end Sys2Proof.Machine
end

section

/-! PROOFS. The codec and builder operations (R99 to R106 of `40_bcd_codec.md`, R111 and R112 of `41_frame_builder.md`): the
state each one ends in, and the values its registers then hold. -/

namespace Sys2Proof.Machine

/-! ## Numeric results (R99, R100, R102) -/

theorem exec_bcdDec {s : State} (h : s.Ready) (x : BitVec 20) :
    exec (.bcdDec x) s = .next (s.quietEnd (.bcdDec x) .noError
      { Results.zero with value := BitVec.ofNat 34 (decBcd x.toNat) } s.mem.txbuf) := exec_ready h _

theorem exec_bcdEnc {s : State} (h : s.Ready) (v : BitVec 16) :
    exec (.bcdEnc v) s = .next (s.quietEnd (.bcdEnc v) .noError
      { Results.zero with value := BitVec.ofNat 34 (encBcd v.toNat) } s.mem.txbuf) := exec_ready h _

theorem exec_freqDec {s : State} (h : s.Ready) (b : Bytes5) :
    exec (.freqDec b) s = .next (s.quietEnd (.freqDec b) .noError
      { Results.zero with value := BitVec.ofNat 34 (freqDec b) } s.mem.txbuf) := exec_ready h _

/-- A value below `2^34` is held by `RES_VALUE` as it is (R14). -/
theorem resValue_toNat {n : Nat} (h : n < 2 ^ 34) : (BitVec.ofNat 34 n).toNat = n := by
  rw [BitVec.toNat_ofNat, Nat.mod_eq_of_lt h]

/-- Five nibbles decode to at most 166665. -/
theorem decBcd_line_le (x : BitVec 20) : decBcd x.toNat ≤ 166665 :=
  decBcd_le_of_lt_pow (k := 5) x.isLt

/-- The five digits of a 16-bit number are five nibbles. -/
theorem encBcd_line_lt (v : BitVec 16) : encBcd v.toNat < 16 ^ 5 := by
  have hv : v.toNat < 65536 := v.isLt
  rw [encBcd_lt_pow_iff]
  omega

theorem decBcd_five_nibbles {x : Nat} (h : x < 2 ^ 20) :
    decBcd x = x % 16 + 10 * (x / 16 % 16) + 100 * (x / 256 % 16) + 1000 * (x / 4096 % 16) + 10000 * (x / 65536) := by
  have n0 := decBcd_eq x
  have n1 := decBcd_eq (x / 16)
  have n2 := decBcd_eq (x / 16 / 16)
  have n3 := decBcd_eq (x / 16 / 16 / 16)
  have n4 := decBcd_eq (x / 16 / 16 / 16 / 16)
  rw [show x / 16 / 16 / 16 / 16 / 16 = 0 by omega, decBcd_zero] at n4
  simp only [Nat.div_div_eq_div_mul, Nat.reduceMul] at n1 n2 n3 n4
  omega

theorem encBcd_five_digits {v : Nat} (h : v < 10 ^ 5) :
    encBcd v = v % 10 + 16 * (v / 10 % 10) + 256 * (v / 100 % 10) + 4096 * (v / 1000 % 10) + 65536 * (v / 10000) := by
  have d0 := encBcd_eq v
  have d1 := encBcd_eq (v / 10)
  have d2 := encBcd_eq (v / 10 / 10)
  have d3 := encBcd_eq (v / 10 / 10 / 10)
  have d4 := encBcd_eq (v / 10 / 10 / 10 / 10)
  rw [show v / 10 / 10 / 10 / 10 / 10 = 0 by omega, encBcd_zero] at d4
  omega

/-- Settles O21: five nibbles at their places, within `RES_VALUE`. -/
theorem bcdDecResult : Obligations.BcdDecResult := by
  intro s x h
  refine ⟨_, _, exec_bcdDec h x, codecDone_quietEnd, ?_⟩
  have := decBcd_line_le x
  rw [resValue_toNat (by omega), decBcd_five_nibbles x.isLt]

/-- Settles O22: five digits as nibbles, within `RES_VALUE`. -/
theorem bcdEncResult : Obligations.BcdEncResult := by
  intro s v h
  refine ⟨_, _, exec_bcdEnc h v, codecDone_quietEnd, ?_⟩
  have hv : v.toNat < 65536 := v.isLt
  have := encBcd_line_lt v
  rw [resValue_toNat (by omega), encBcd_five_digits (by omega)]

/-- Settles O24: the weighted sum of R95, nibble by nibble. -/
theorem freqDecResult : Obligations.FreqDecResult := by
  intro s b h
  exact ⟨_, _, exec_freqDec h b, codecDone_quietEnd, (freqDec_register b).trans (freqDec_nibbles b)⟩

/-! ## Byte results (R101, R103, R105, R106) -/

/-- An operation whose operand function gives bytes stores them. -/
theorem exec_bytes {s : State} {i : Instr} {bs : List Byte} (h : s.Ready)
    (hb : ∀ u, bodyOf i u = u.completeBytes bs) :
    exec i s = .next (s.quietEnd i .noError
      { Results.zero with bytes := bytes5Of bs, blen := BitVec.ofNat 3 bs.length } s.mem.txbuf) := by
  rw [exec_ready h, hb, completeBytes_accept]

theorem bodyOf_freqEnc {n : BitVec 30} (h : n.toNat ≤ 999999999) (u : State) :
    bodyOf (.freqEnc n) u = u.completeBytes (freqEnc n.toNat) := by
  rw [bodyOf, freqBytes_legal h, refuseUnless_some]

theorem bodyOf_modeEnc {sel : BitVec 4} {c : Byte} (h : modeCode sel = some c) (u : State) :
    bodyOf (.modeEnc sel) u = u.completeBytes [c] := by
  rw [bodyOf, h, refuseUnless_some]

theorem bodyOf_chanEnc {special : Bool} {val : Byte} {d : List Byte} (h : chanBytes special val = some d) (u : State) :
    bodyOf (.chanEnc special val) u = u.completeBytes d := by
  rw [bodyOf, h, refuseUnless_some]

theorem bodyOf_bankEnc {bank : Byte} (h : 1 ≤ bank.toNat ∧ bank.toNat ≤ 5) (u : State) :
    bodyOf (.bankEnc bank) u = u.completeBytes [bank] := by
  rw [bodyOf, bankByte_legal h, refuseUnless_some]

/-- Settles O23: the five digit pairs of a legal frequency, the refusal of R101 for any other. -/
theorem freqEncResult : Obligations.FreqEncResult := by
  intro s n h
  refine ⟨fun hn => ?_, fun hn => ⟨_, exec_refuses h hn, refused_quietEnd⟩⟩
  exact ⟨_, bytes5Of (freqEnc n.toNat), exec_bytes h (bodyOf_freqEnc hn), codecDone_quietEnd,
    fun _ hk => freqEnc_digit_pair _ hk⟩

/-- Settles O25: the wire code of a legal selector, the refusal of R103 for any other. -/
theorem modeEncResult : Obligations.ModeEncResult := by
  intro s sel h
  refine ⟨fun hs => ?_, fun hs => ⟨_, exec_refuses h hs, refused_quietEnd⟩⟩
  obtain ⟨c, hc, hv⟩ := modeCode_legal sel hs
  exact ⟨_, c, exec_bytes h (bodyOf_modeEnc hc), codecDone_quietEnd, hv⟩

/-- Settles O27: by the kind of the channel and the legality of its value. -/
theorem chanEncResult : Obligations.ChanEncResult := by
  intro s special val h
  cases special with
  | false =>
    by_cases hv : val.toNat ≤ 99
    · refine ⟨_, exec_bytes h (bodyOf_chanEnc (chanBytes_integer hv)), fun _ _ => ?_, fun _ hgt => by omega, nofun, nofun⟩
      exact ⟨bcdByte val.toNat, bcdByte_toNat (by omega), codecDone_quietEnd⟩
    · have hgt : val.toNat > 99 := by omega
      exact ⟨_, exec_refuses h (i := .chanEnc false val) hgt, fun _ hle => absurd hle hv, fun _ _ => refused_quietEnd, nofun,
        nofun⟩
  | true =>
    by_cases hv : val = 0
    · subst hv
      exact ⟨_, exec_bytes h (bodyOf_chanEnc chanBytes_special), nofun, nofun, fun _ _ => codecDone_quietEnd,
        fun _ hne => absurd rfl hne⟩
    · exact ⟨_, exec_refuses h (i := .chanEnc true val) hv, nofun, nofun, fun _ h0 => absurd h0 hv,
        fun _ _ => refused_quietEnd⟩

/-- Settles O28: by the legality of the bank. -/
theorem bankEncResult : Obligations.BankEncResult := by
  intro s bank h
  by_cases hb : 1 ≤ bank.toNat ∧ bank.toNat ≤ 5
  · exact ⟨_, exec_bytes h (bodyOf_bankEnc hb), fun _ => codecDone_quietEnd, fun hn => absurd hb hn⟩
  · have hi : IllegalOperands s (.bankEnc bank) := show bank.toNat < 1 ∨ bank.toNat > 5 by omega
    exact ⟨_, exec_refuses h hi, fun hy => absurd hy hb, fun _ => refused_quietEnd⟩

/-! ## The mode of a wire code (R104) -/

theorem exec_modeDec_known {s : State} {b0 : Byte} {sel : BitVec 4} (h : s.Ready) (hm : modeName b0 = some sel) :
    exec (.modeDec b0) s =
      .next (s.quietEnd (.modeDec b0) .noError { Results.zero with modeSel := sel } s.mem.txbuf) := by
  rw [exec_ready h, bodyOf, State.completeMode, hm]
  rfl

theorem exec_modeDec_unknown {s : State} {b0 : Byte} (h : s.Ready) (hm : modeName b0 = none) :
    exec (.modeDec b0) s = .next (s.quietEnd (.modeDec b0) .malformedResponse Results.zero s.mem.txbuf) := by
  rw [exec_ready h, bodyOf, State.completeMode, hm, raise_accept h]

/-- Settles O26: by the three classes of codes. -/
theorem modeDecResult : Obligations.ModeDecResult := by
  intro s b0 h
  by_cases hlow : b0.toNat ≤ 8
  · refine ⟨_, exec_modeDec_known h (modeName_low hlow), sameBuffers_quietEnd, fun _ => completedQuietly_quietEnd,
      fun hdv => ?_, fun hgt => by omega⟩
    rw [hdv] at hlow
    exact absurd hlow (by decide)
  · by_cases hdv : b0 = 0x17
    · subst hdv
      exact ⟨_, exec_modeDec_known h modeName_dv, sameBuffers_quietEnd, fun hle => absurd hle hlow,
        fun _ => completedQuietly_quietEnd, fun _ hne => absurd rfl hne⟩
    · exact ⟨_, exec_modeDec_unknown h (modeName_unknown (by omega) hdv), sameBuffers_quietEnd,
        fun hle => absurd hle hlow, fun heq => absurd heq hdv, fun _ _ => completedQuietly_quietEnd⟩

/-! ## Builder operations (R111, R112) -/

theorem exec_build_legal {s : State} {cmd : Byte} {hasSub : Bool} {sub : Byte} {dlen : BitVec 6} {data : List Byte}
    (h : s.Ready) (hi : ¬ IllegalOperands s (.build cmd hasSub sub dlen data)) :
    exec (.build cmd hasSub sub dlen data) s = .next (s.quietEnd (.build cmd hasSub sub dlen data) .noError Results.zero
      ([0xFE, 0xFE, 0x88, 0xE0, cmd] ++ (if hasSub then [sub] else []) ++ data.take dlen.toNat ++ [0xFD])) := by
  simp only [IllegalOperands, not_or] at hi
  obtain ⟨hl, hc, hs, hd⟩ := hi
  rw [exec_ready h, bodyOf, buildFrame_legal (by omega) hc hs hd, complete_loadTx_accept]

/-- Settles O29: the frame of legal operands, whose length is that of its parts. -/
theorem buildStoresTheFrame : Obligations.BuildStoresTheFrame := by
  intro s cmd hasSub sub dlen data h hdata hi
  refine ⟨_, exec_build_legal h hi, completedQuietly_quietEnd, fun _ => rfl, ?_, fun _ => rfl, rfl⟩
  simp only [IllegalOperands, not_or] at hi
  obtain ⟨hl, -⟩ := hi
  have taken : (data.take dlen.toNat).length = dlen.toNat := by rw [List.length_take]; omega
  rw [State.txlen, BitVec.toNat_ofNat, State.quietEnd_mem, Memory.setTx_txbuf]
  cases hasSub <;> simp [taken] <;> omega

theorem exec_buildPwron_legal {s : State} {baud : BitVec 3} {k : Nat} (h : s.Ready) (hk : leadinCount baud = some k) :
    exec (.buildPwron baud) s = .next (s.quietEnd (.buildPwron baud) .noError Results.zero
      (List.replicate k 0xFE ++ [0xFE, 0xFE, 0x88, 0xE0, 0x18, 0x01, 0xFD])) := by
  rw [exec_ready h, bodyOf, hk, refuseUnless_some, complete_loadTx_accept]
  rfl

/-- Settles O30: the lead-in of a legal selector and the power-on frame, the refusal of R112 for any other. -/
theorem buildPwronStoresTheSequence : Obligations.BuildPwronStoresTheSequence := by
  intro s baud h
  refine ⟨fun k hk => ?_, fun hb => ⟨_, exec_refuses h hb, refused_quietEnd⟩⟩
  obtain ⟨hcount, hle⟩ := leadinCount_legal hk
  refine ⟨_, exec_buildPwron_legal h hcount, completedQuietly_quietEnd, fun _ => rfl, ?_, fun _ => rfl, rfl⟩
  rw [State.txlen, BitVec.toNat_ofNat, State.quietEnd_mem, Memory.setTx_txbuf, List.length_append, List.length_replicate]
  exact Nat.mod_eq_of_lt (show k + 7 < 2 ^ 7 by omega)

end Sys2Proof.Machine
end

section

/-! PROOFS. The acceptance step of every operation (R25, R78, R120, R208), the commands' entry into TX (R74, R82, R152 to
R164), and the reading of what they send (R83). -/

namespace Sys2Proof.Machine

/-! ## What an operation puts into `TXBUF` (R113) -/

/-- A sequence with its only terminator last, within the capacity of `TXBUF`. -/
def IsSequence (f : List Byte) : Prop :=
  f.getLast? = some Config.term ∧ Config.term ∉ f.dropLast ∧ f.length ≤ Config.txMax

/-- What `TXBUF` may hold is nothing or such a sequence. -/
theorem txbufShape_iff (f : List Byte) : TxbufShape f ↔ f = [] ∨ IsSequence f := Iff.rfl

theorem isSequence_concat {body : List Byte} (ht : (0xFD : Byte) ∉ body) (hl : body.length < 64) :
    IsSequence (body ++ [0xFD]) := by
  refine ⟨List.getLast?_concat, ?_, ?_⟩
  · rw [List.dropLast_concat]
    exact ht
  · rw [List.length_append]
    exact hl

theorem IsSequence.ne_nil {f : List Byte} (h : IsSequence f) : f ≠ [] := by
  rintro rfl
  cases h.1

theorem IsSequence.length_le {f : List Byte} (h : IsSequence f) : f.length ≤ 64 := h.2.2

/-! ## Legal operands -/

theorem leadinCount_le : ∀ (baud : BitVec 3), ∀ k ∈ leadinCount baud, k ≤ 25 := by
  decide

theorem leadinCount_isSome : ∀ baud : BitVec 3, baud.toNat ≤ 4 → (leadinCount baud).isSome := by
  decide

theorem leadinCount_of_le (baud : BitVec 3) (h : baud.toNat ≤ 4) : ∃ k, leadinCount baud = some k :=
  Option.isSome_iff_exists.1 (leadinCount_isSome baud h)

/-- A legal channel's data: one packed byte, or the two bytes of the special channel (R70). -/
theorem chanBytes_cases {special : Bool} {val : Byte} {d : List Byte} (h : chanBytes special val = some d) :
    (special = false ∧ val.toNat ≤ 99 ∧ d = [bcdByte val.toNat]) ∨ (special = true ∧ val = 0 ∧ d = [0x01, 0x00]) := by
  cases special with
  | false =>
    by_cases hv : val.toNat ≤ 99
    · rw [chanBytes_integer hv] at h
      cases h
      exact .inl ⟨rfl, hv, rfl⟩
    · rw [chanBytes_integer_illegal (by omega)] at h
      cases h
  | true =>
    by_cases hv : val = 0
    · subst hv
      rw [chanBytes_special] at h
      cases h
      exact .inr ⟨rfl, rfl, rfl⟩
    · rw [chanBytes_special_illegal hv] at h
      cases h

/-- A channel that R176 does not name has data bytes. -/
theorem chanBytes_of_legal {special : Bool} {val : Byte} (h : ¬ if special then val ≠ 0 else val.toNat > 99) :
    ∃ d, chanBytes special val = some d := by
  cases special with
  | false => exact ⟨_, chanBytes_integer (Nat.not_lt.1 h)⟩
  | true =>
    obtain rfl : val = 0 := not_not.1 h
    exact ⟨_, chanBytes_special⟩

/-- No data byte of a channel is the terminator. -/
theorem term_not_mem_chanBytes {special : Bool} {val : Byte} {d : List Byte} (h : chanBytes special val = some d) :
    (0xFD : Byte) ∉ d ∧ d.length ≤ 2 := by
  obtain ⟨-, hv, rfl⟩ | ⟨-, -, rfl⟩ := chanBytes_cases h
  · have := bcdByte_ne_term (v := val.toNat) (by omega)
    simpa using this.symm
  · decide

theorem modeCode_cases {sel : BitVec 4} {c : Byte} (h : modeCode sel = some c) :
    sel.toNat ≤ 9 ∧ c.toNat = if sel = 9 then 0x17 else sel.toNat := by
  by_cases hs : sel.toNat ≤ 9
  · obtain ⟨c', hc, hv⟩ := modeCode_legal sel hs
    obtain rfl : c' = c := Option.some.inj (hc.symm.trans h)
    exact ⟨hs, hv⟩
  · rw [modeCode_illegal sel (by omega)] at h
    cases h

theorem modeCode_ne_term {sel : BitVec 4} {c : Byte} (h : modeCode sel = some c) : c ≠ 0xFD := by
  rintro rfl
  obtain ⟨hs, hv⟩ := modeCode_cases h
  split at hv
  · exact absurd hv (by decide)
  · exact absurd (hv.trans_le hs) (by decide)

theorem bank_ne_term {bank : Byte} (h : 1 ≤ bank.toNat ∧ bank.toNat ≤ 5) : bank ≠ 0xFD := by
  rintro rfl
  exact absurd h (by decide)

/-! ## What a command sends (R74) -/

section Sequences

variable {s : State}

theorem sequenceOf_pwrOn {baud : BitVec 3} {k : Nat} (h : leadinCount baud = some k) :
    sequenceOf s (.pwrOn baud) = some (List.replicate k 0xFE ++ [0xFE, 0xFE, 0x88, 0xE0, 0x18, 0x01, 0xFD]) := by
  rw [sequenceOf, h, Option.map_some]

theorem sequenceOf_memBank {bank : Byte} (h : 1 ≤ bank.toNat ∧ bank.toNat ≤ 5) :
    sequenceOf s (.memBank bank) = some [0xFE, 0xFE, 0x88, 0xE0, 0x08, 0xA0, bank, 0xFD] := if_pos h

theorem sequenceOf_memChan {special : Bool} {val : Byte} {d : List Byte} (h : chanBytes special val = some d) :
    sequenceOf s (.memChan special val) = some ([0xFE, 0xFE, 0x88, 0xE0, 0x08] ++ d ++ [0xFD]) := by
  rw [sequenceOf, h, Option.map_some]

theorem sequenceOf_freqSet {n : BitVec 30} (h : n.toNat ≤ 999999999) :
    sequenceOf s (.freqSet n) = some ([0xFE, 0xFE, 0x88, 0xE0, 0x00] ++ freqEnc n.toNat ++ [0xFD]) := if_pos h

theorem sequenceOf_modeSet {sel : BitVec 4} {c : Byte} (h : modeCode sel = some c) :
    sequenceOf s (.modeSet sel) = some [0xFE, 0xFE, 0x88, 0xE0, 0x06, c, 0xFD] := by
  rw [sequenceOf, h, Option.map_some]

/-- EXEC sends what is built, which is something. -/
theorem sequenceOf_execute {f : List Byte} : sequenceOf s .execute = some f ↔ f = s.mem.txbuf ∧ f ≠ [] := by
  simp only [sequenceOf, Option.ite_none_left_eq_some, Option.some.injEq]
  constructor
  · rintro ⟨h, rfl⟩
    exact ⟨rfl, h⟩
  · rintro ⟨rfl, h⟩
    exact ⟨h, rfl⟩

end Sequences

/-- What a command sends is a sequence with its only terminator last. -/
theorem isSequence_of_sends {s : State} {i : Instr} {f : List Byte} (h : sequenceOf s i = some f) (hi : i ≠ .execute) :
    IsSequence f := by
  cases i with
  | execute => exact absurd rfl hi
  | pwrOn baud =>
    obtain ⟨k, hk, rfl⟩ := Option.map_eq_some_iff.1 h
    have hle := leadinCount_le baud k hk
    have hf := isSequence_concat (body := List.replicate k 0xFE ++ [0xFE, 0xFE, 0x88, 0xE0, 0x18, 0x01]) (by simp)
      (by simp; omega)
    rw [List.append_assoc] at hf
    exact hf
  | memBank bank =>
    simp only [sequenceOf, Option.ite_none_right_eq_some, Option.some.injEq] at h
    obtain ⟨hb, rfl⟩ := h
    have hterm := (bank_ne_term hb).symm
    exact isSequence_concat (body := [0xFE, 0xFE, 0x88, 0xE0, 0x08, 0xA0, bank]) (by simpa using hterm) (by simp)
  | memChan special val =>
    obtain ⟨d, hd, rfl⟩ := Option.map_eq_some_iff.1 h
    obtain ⟨hterm, hl⟩ := term_not_mem_chanBytes hd
    exact isSequence_concat (by simpa using hterm) (by simp; omega)
  | freqSet n =>
    simp only [sequenceOf, Option.ite_none_right_eq_some, Option.some.injEq] at h
    obtain ⟨-, rfl⟩ := h
    have hterm := term_not_mem_freqEnc n.toNat
    exact isSequence_concat (by simpa using hterm) (by simp [freqEnc, Config.freqBytes])
  | modeSet sel =>
    obtain ⟨c, hc, rfl⟩ := Option.map_eq_some_iff.1 h
    have hterm := (modeCode_ne_term hc).symm
    exact isSequence_concat (body := [0xFE, 0xFE, 0x88, 0xE0, 0x06, c]) (by simpa using hterm) (by simp)
  | bcdDec | bcdEnc | freqEnc | freqDec | modeEnc | modeDec | chanEnc | bankEnc | build | buildPwron => cases h
  | pwrOff | vfoA | vfoB | memMode | freqRd | modeRd | pttRx | pttTx =>
    cases h
    exact ⟨by decide, by decide, by decide⟩



/-- Whatever is sent is something and fits. -/
theorem sends_fits {s : State} {i : Instr} {f : List Byte} (h : sequenceOf s i = some f) (hwf : s.mem.wf = true) :
    f ≠ [] ∧ f.length ≤ 64 := by
  by_cases hi : i = .execute
  · subst hi
    obtain ⟨rfl, hne⟩ := sequenceOf_execute.1 h
    exact ⟨hne, ((Memory.wf_iff _).1 hwf).1⟩
  · have hf := isSequence_of_sends h hi
    exact ⟨hf.ne_nil, hf.length_le⟩

/-- An operation that sends something is EXEC or a command (R130). -/
theorem isTransactional_of_sends {s : State} {i : Instr} {f : List Byte} (h : sequenceOf s i = some f) (r : Request) :
    isTransactional (i.drive r).opid = true := by
  cases i with
  | bcdDec | bcdEnc | freqEnc | freqDec | modeEnc | modeDec | chanEnc | bankEnc | build | buildPwron => cases h
  | _ => rfl

/-! ## The two ends of an acceptance step (R130) -/

/-- The result registers keep within the ranges of R14. -/
def ResultsInRange (res : Results) : Prop :=
  res.blen.toNat ≤ 5 ∧ res.modeSel.toNat ≤ 9 ∧ res.filter.toNat ≤ 165 ∧ res.value.toNat ≤ 16666666665

theorem resultsInRange_zero : ResultsInRange Results.zero := by
  unfold ResultsInRange
  decide

theorem resultsInRange_value {v : Nat} (h : v ≤ 16666666665) :
    ResultsInRange { Results.zero with value := BitVec.ofNat 34 v } :=
  ⟨Nat.zero_le _, Nat.zero_le _, Nat.zero_le _, by rw [resValue_toNat (by omega)]; exact h⟩

theorem resultsInRange_bytes {bs : List Byte} (h : bs.length ≤ 5) :
    ResultsInRange { Results.zero with bytes := bytes5Of bs, blen := BitVec.ofNat 3 bs.length } := by
  refine ⟨?_, Nat.zero_le _, Nat.zero_le _, Nat.zero_le _⟩
  rw [BitVec.toNat_ofNat, Nat.mod_eq_of_lt (by omega)]
  exact h

/-- The acceptance step of `i` completes the operation: results within their ranges, and in `TXBUF` what was there or a
sequence. -/
def EndsAtOnce (s : State) (i : Instr) : Prop :=
  ∃ e res f, exec i s = .next (s.quietEnd i e res f) ∧ ResultsInRange res ∧ (f = s.mem.txbuf ∨ IsSequence f)

theorem endsAtOnce_of_value {s : State} {i : Instr} {v : Nat} (hv : v ≤ 16666666665)
    (h : exec i s = .next (s.quietEnd i .noError { Results.zero with value := BitVec.ofNat 34 v } s.mem.txbuf)) :
    EndsAtOnce s i :=
  ⟨_, _, _, h, resultsInRange_value hv, .inl rfl⟩

theorem endsAtOnce_of_bytes {s : State} {i : Instr} {bs : List Byte} (h : s.Ready) (hl : bs.length ≤ 5)
    (hb : ∀ u, bodyOf i u = u.completeBytes bs) : EndsAtOnce s i :=
  ⟨_, _, _, exec_bytes h hb, resultsInRange_bytes hl, .inl rfl⟩

theorem endsAtOnce_of_illegal {s : State} {i : Instr} (h : s.Ready) (hi : IllegalOperands s i) : EndsAtOnce s i :=
  ⟨_, _, _, exec_refuses h hi, resultsInRange_zero, .inl rfl⟩

theorem endsAtOnce_modeDec {s : State} (h : s.Ready) (b0 : Byte) : EndsAtOnce s (.modeDec b0) := by
  cases hm : modeName b0 with
  | none => exact ⟨_, _, _, exec_modeDec_unknown h hm, resultsInRange_zero, .inl rfl⟩
  | some sel =>
    obtain ⟨hs, -⟩ := code_of_modeName hm
    exact ⟨_, _, _, exec_modeDec_known h hm, ⟨Nat.zero_le _, hs, Nat.zero_le _, Nat.zero_le _⟩, .inl rfl⟩

theorem endsAtOnce_build {s : State} {cmd : Byte} {hasSub : Bool} {sub : Byte} {dlen : BitVec 6} {data : List Byte}
    (h : s.Ready) (hi : ¬ IllegalOperands s (.build cmd hasSub sub dlen data)) :
    EndsAtOnce s (.build cmd hasSub sub dlen data) := by
  refine ⟨_, _, _, exec_build_legal h hi, resultsInRange_zero, .inr (isSequence_concat ?_ ?_)⟩
  all_goals
    simp only [IllegalOperands, not_or] at hi
    obtain ⟨hl, hc, hs, hd⟩ := hi
  · have hc' : (0xFD : Byte) ≠ cmd := fun e => hc e.symm
    cases hasSub with
    | false => simpa using ⟨hc', hd⟩
    | true =>
      have hs' : (0xFD : Byte) ≠ sub := fun e => hs ⟨rfl, e.symm⟩
      simpa using ⟨hc', hs', hd⟩
  · cases hasSub <;> simp <;> omega

theorem endsAtOnce_buildPwron {s : State} {baud : BitVec 3} (h : s.Ready) (hb : baud.toNat ≤ 4) :
    EndsAtOnce s (.buildPwron baud) := by
  obtain ⟨k, hk⟩ := leadinCount_of_le baud hb
  exact ⟨_, _, _, exec_buildPwron_legal h hk, resultsInRange_zero,
    .inr (isSequence_of_sends (s := s) (sequenceOf_pwrOn hk) nofun)⟩

/-- Every acceptance step in a ready block completes its operation or begins the transaction of its sequence. -/
theorem exec_cases {s : State} (h : s.Ready) (i : Instr) :
    EndsAtOnce s i ∨ ∃ f, sequenceOf s i = some f ∧ exec i s = .next (s.begun i f) := by
  have sends {f : List Byte} (hf : sequenceOf s i = some f) :
      EndsAtOnce s i ∨ ∃ f, sequenceOf s i = some f ∧ exec i s = .next (s.begun i f) :=
    .inr ⟨f, hf, exec_sends h hf⟩
  by_cases hi : IllegalOperands s i
  · exact .inl (endsAtOnce_of_illegal h hi)
  cases i with
  | bcdDec x =>
    have := decBcd_line_le x
    exact .inl (endsAtOnce_of_value (by omega) (exec_bcdDec h x))
  | bcdEnc v =>
    have := encBcd_line_lt v
    exact .inl (endsAtOnce_of_value (by omega) (exec_bcdEnc h v))
  | freqEnc n => exact .inl (endsAtOnce_of_bytes h (bcdBytes_length _ _).le (bodyOf_freqEnc (Nat.not_lt.1 hi)))
  | freqDec b => exact .inl (endsAtOnce_of_value (freqDec_le b) (exec_freqDec h b))
  | modeEnc sel =>
    obtain ⟨c, hc, -⟩ := modeCode_legal sel (Nat.not_lt.1 hi)
    exact .inl (endsAtOnce_of_bytes h (by simp) (bodyOf_modeEnc hc))
  | modeDec b0 => exact .inl (endsAtOnce_modeDec h b0)
  | chanEnc special val =>
    obtain ⟨d, hd⟩ := chanBytes_of_legal hi
    obtain ⟨-, hl⟩ := term_not_mem_chanBytes hd
    exact .inl (endsAtOnce_of_bytes h (by omega) (bodyOf_chanEnc hd))
  | bankEnc bank =>
    have hb : ¬ (bank.toNat < 1 ∨ bank.toNat > 5) := hi
    exact .inl (endsAtOnce_of_bytes h (by simp) (bodyOf_bankEnc (by omega)))
  | build cmd hasSub sub dlen data => exact .inl (endsAtOnce_build h hi)
  | buildPwron baud => exact .inl (endsAtOnce_buildPwron h (Nat.not_lt.1 hi))
  | execute => exact sends (sequenceOf_execute.2 ⟨rfl, hi⟩)
  | pwrOn baud =>
    obtain ⟨k, hk⟩ := leadinCount_of_le baud (Nat.not_lt.1 hi)
    exact sends (sequenceOf_pwrOn hk)
  | memBank bank =>
    have hb : ¬ (bank.toNat < 1 ∨ bank.toNat > 5) := hi
    exact sends (sequenceOf_memBank (by omega))
  | memChan special val =>
    obtain ⟨d, hd⟩ := chanBytes_of_legal hi
    exact sends (sequenceOf_memChan hd)
  | freqSet n => exact sends (sequenceOf_freqSet (Nat.not_lt.1 hi))
  | modeSet sel =>
    obtain ⟨c, hc, -⟩ := modeCode_legal sel (Nat.not_lt.1 hi)
    exact sends (sequenceOf_modeSet hc)
  | pwrOff | vfoA | vfoB | memMode | freqRd | modeRd | pttRx | pttTx => exact sends rfl

/-- Settles O7: both ends of the acceptance step. -/
theorem acceptanceStepFrame : Obligations.AcceptanceStepFrame := by
  intro i s t h ht
  obtain ⟨e, res, f, he, -⟩ | ⟨f, -, hf⟩ := exec_cases h i
  · cases he.symm.trans ht
    exact ⟨rfl, rfl, rfl, rfl, rfl, rfl, rfl, rfl, .inr ⟨rfl, rfl, rfl, rfl, rfl, fun _ => rfl⟩⟩
  · cases hf.symm.trans ht
    exact ⟨rfl, rfl, rfl, rfl, rfl, rfl, rfl, rfl, .inl ⟨rfl, rfl⟩⟩

/-- A reserved request in the operand registers completes without a transaction (R78). -/
theorem completedQuietly_refuseReserved {s : State} (hp : s.phase = .idle) :
    CompletedQuietly s s.refuseReserved .unsupportedValue s.latch Results.zero := by
  refine ⟨rfl, ?_, rfl, rfl, rfl, rfl, rfl, rfl, rfl⟩
  rw [State.refuseReserved_status, hp, Status.finished]

/-- Settles O6: the decoder rejects the number, and the refusal is before any I/O. -/
theorem reservedOpidCompletesUnsupported : Obligations.ReservedOpidCompletesUnsupported := by
  intro s r rest h hp hop
  obtain ⟨e, he⟩ := decode_reserved hop
  obtain ⟨hphase, hstatus, hlatch, hresults, hquiet⟩ :=
    completedQuietly_refuseReserved (s := { s with port := rest, latch := r }) h.1
  exact ⟨_, step_reserved h hp he, ⟨hphase, hstatus, hlatch, hresults, hquiet⟩, sameBuffers_refl rfl⟩

/-! ## The entry into TX, operation by operation -/

theorem sends_txnBegun {s : State} {i : Instr} {f : List Byte} (h : s.Ready) (hf : sequenceOf s i = some f)
    (hl : f.length ≤ 64) : ∃ t, exec i s = .next t ∧ TxnBegun s t (i.drive s.latch) f :=
  ⟨_, exec_sends h hf, txnBegun_begun hl⟩

/-- Settles O32: EXEC sends what is built. -/
theorem execEntersTx : Obligations.ExecEntersTx := by
  intro s h hwf hne
  exact sends_txnBegun h (sequenceOf_execute.2 ⟨rfl, hne⟩) ((Memory.wf_iff _).1 hwf).1

/-- Settles O33: the table's eight sequences. -/
theorem plainCommandsEnterTx : Obligations.PlainCommandsEnterTx := by
  intro s i opid body h hmem
  simp only [List.mem_cons, Prod.mk.injEq, List.not_mem_nil, or_false] at hmem
  rcases hmem with ⟨rfl, rfl, rfl⟩ | ⟨rfl, rfl, rfl⟩ | ⟨rfl, rfl, rfl⟩ | ⟨rfl, rfl, rfl⟩ | ⟨rfl, rfl, rfl⟩ | ⟨rfl, rfl, rfl⟩ |
    ⟨rfl, rfl, rfl⟩ | ⟨rfl, rfl, rfl⟩
  all_goals exact sends_txnBegun h rfl (by decide)

/-- Settles O34: the lead-in of a legal selector before the frame. -/
theorem pwrOnEntersTx : Obligations.PwrOnEntersTx := by
  intro s baud k h hk
  obtain ⟨hcount, -⟩ := leadinCount_legal hk
  have hf := sequenceOf_pwrOn (s := s) hcount
  exact sends_txnBegun h hf (isSequence_of_sends hf nofun).length_le

/-- Settles O35: bank, channel and mode as one or two data bytes. -/
theorem selectCommandsEnterTx : Obligations.SelectCommandsEnterTx := by
  refine fun s h => ⟨fun bank h1 h5 => ?bank, fun val hv => ?channel, ?special, fun sel hs => ?mode⟩
  case bank => exact sends_txnBegun h (sequenceOf_memBank ⟨h1, h5⟩) (by simp)
  case channel =>
    obtain ⟨t, ht, hb⟩ := sends_txnBegun h (sequenceOf_memChan (chanBytes_integer hv)) (by simp)
    exact ⟨t, bcdByte val.toNat, ht, bcdByte_toNat (by omega), hb⟩
  case special => exact sends_txnBegun h (sequenceOf_memChan chanBytes_special) (by decide)
  case mode =>
    obtain ⟨c, hc, hv⟩ := modeCode_legal sel hs
    obtain ⟨t, ht, hb⟩ := sends_txnBegun h (sequenceOf_modeSet hc) (by simp)
    exact ⟨t, c, ht, hv, hb⟩

/-- Settles O36: the payload of R69 as data bytes. -/
theorem freqSetEntersTx : Obligations.FreqSetEntersTx := by
  intro s n h hn
  have hf : sequenceOf s (.freqSet n) =
      some ([0xFE, 0xFE, 0x88, 0xE0, 0x00] ++ bytes5List (bytes5Of (freqEnc n.toNat)) ++ [0xFD]) := by
    rw [← freqEnc_eq_bytes5List]
    exact sequenceOf_freqSet hn
  obtain ⟨t, ht, hb⟩ := sends_txnBegun h hf (isSequence_of_sends hf nofun).length_le
  exact ⟨t, _, ht, hb, fun _ hk => freqEnc_digit_pair _ hk⟩

/-! ## A command is BUILD, then EXEC (R82) -/

/-- The state BUILD leaves is ready, and EXEC begins in it what a command with the same sequence begins at once. -/
theorem sends_eq_built_then_executed {s : State} {i b : Instr} {f : List Byte} (h : s.Ready)
    (hf : sequenceOf s i = some f) (hne : f ≠ [])
    (hb : exec b s = .next (s.quietEnd b .noError Results.zero f)) :
    ∃ t u v, exec i s = .next t ∧ exec b s = .next u ∧ exec .execute u = .next v ∧ { t with latch := v.latch } = v :=
  ⟨_, _, _, exec_sends h hf, hb, exec_sends ⟨rfl, rfl⟩ (sequenceOf_execute.2 ⟨rfl, hne⟩), rfl⟩

/-- BUILD of operands laid out in 32 lines stores the frame of those operands. -/
theorem exec_build_padded {s : State} {cmd : Byte} {hasSub : Bool} {sub : Byte} {d : List Byte} (h : s.Ready)
    (hc : cmd ≠ 0xFD) (hs : ¬ (hasSub = true ∧ sub = 0xFD)) (hd : (0xFD : Byte) ∉ d) (hl : d.length ≤ 32) :
    exec (.build cmd hasSub sub (BitVec.ofNat 6 d.length) (d ++ List.replicate (32 - d.length) 0)) s =
      .next (s.quietEnd (.build cmd hasSub sub (BitVec.ofNat 6 d.length) (d ++ List.replicate (32 - d.length) 0)) .noError
        Results.zero ([0xFE, 0xFE, 0x88, 0xE0, cmd] ++ (if hasSub then [sub] else []) ++ d ++ [0xFD])) := by
  have hlen : (BitVec.ofNat 6 d.length).toNat = d.length := by
    rw [BitVec.toNat_ofNat, Nat.mod_eq_of_lt (by omega)]
  have htake : (d ++ List.replicate (32 - d.length) 0).take (BitVec.ofNat 6 d.length).toNat = d := by
    rw [hlen, List.take_left]
  have hi : ¬ IllegalOperands s (.build cmd hasSub sub (BitVec.ofNat 6 d.length)
      (d ++ List.replicate (32 - d.length) 0)) := by
    rw [IllegalOperands, htake, hlen]
    simp only [not_or]
    exact ⟨by omega, hc, hs, hd⟩
  rw [exec_build_legal h hi, htake]

/-- Settles O37: the command's sequence is the frame of BUILD's operands, or the sequence of BUILD.PWRON. -/
theorem commandIsBuildThenExec : Obligations.CommandIsBuildThenExec := by
  refine ⟨fun s i cmd hasSub sub d h hi => ?command, fun s baud h hb => ?pwrOn⟩
  case pwrOn =>
    obtain ⟨k, hk⟩ := leadinCount_of_le baud hb
    exact sends_eq_built_then_executed h (sequenceOf_pwrOn hk) (by simp) (exec_buildPwron_legal h hk)
  case command =>
    suffices hs : sequenceOf s i =
          some ([0xFE, 0xFE, 0x88, 0xE0, cmd] ++ (if hasSub then [sub] else []) ++ d ++ [0xFD]) ∧
        cmd ≠ 0xFD ∧ ¬ (hasSub = true ∧ sub = 0xFD) ∧ (0xFD : Byte) ∉ d ∧ d.length ≤ 32 by
      obtain ⟨hf, hc, hsub, hd, hl⟩ := hs
      exact sends_eq_built_then_executed h hf (by simp) (exec_build_padded h hc hsub hd hl)
    obtain hplain | ⟨bank, rfl, rfl, rfl, rfl, hbank, rfl⟩ | ⟨sp, val, rfl, rfl, rfl, hd⟩ | ⟨n, rfl, rfl, rfl, hd⟩ |
      ⟨sel, c, rfl, rfl, rfl, hc, rfl⟩ := hi
    · simp only [List.mem_cons, Prod.mk.injEq, List.not_mem_nil, or_false] at hplain
      rcases hplain with ⟨rfl, rfl, rfl, rfl, rfl⟩ | ⟨rfl, rfl, rfl, rfl, rfl⟩ | ⟨rfl, rfl, rfl, rfl, rfl⟩ |
        ⟨rfl, rfl, rfl, rfl, rfl⟩ | ⟨rfl, rfl, rfl, rfl, rfl⟩ | ⟨rfl, rfl, rfl, rfl, rfl⟩ | ⟨rfl, rfl, rfl, rfl, rfl⟩ |
        ⟨rfl, rfl, rfl, rfl, rfl⟩
      all_goals exact ⟨rfl, by decide, by decide, by decide, by decide⟩
    · have hb : 1 ≤ bank.toNat ∧ bank.toNat ≤ 5 := (Option.ite_none_right_eq_some.1 hbank).1
      have hterm := (bank_ne_term hb).symm
      exact ⟨sequenceOf_memBank hb, by decide, by decide, by simpa using hterm, by simp⟩
    · obtain ⟨hterm, hl⟩ := term_not_mem_chanBytes hd
      exact ⟨sequenceOf_memChan hd, by decide, by simp, hterm, by omega⟩
    · simp only [freqBytes, Option.ite_none_right_eq_some, Option.some.injEq] at hd
      obtain ⟨hn, rfl⟩ := hd
      exact ⟨sequenceOf_freqSet hn, by decide, by simp, term_not_mem_freqEnc _, by simp [freqEnc, Config.freqBytes]⟩
    · have hterm := (modeCode_ne_term hc).symm
      exact ⟨sequenceOf_modeSet hc, by decide, by simp, by simpa using hterm, by simp⟩

/-! ## Reading the sequence back (R83) -/

/-- Lead-in bytes before a frame do not change what it is read as. -/
theorem identify_withLeadin (k : Nat) (rest : List Byte) :
    identify (List.replicate k 0xFE ++ (0xFE :: 0xFE :: rest)) = identify (0xFE :: 0xFE :: rest) := by
  simp only [identify, stripLeadin_replicate]

/-- What is in `TXBUF` after an operation that sends `f`. -/
theorem txbuf_after_sends {s t : State} {i : Instr} {f : List Byte} (h : s.Ready) (ht : exec i s = .next t)
    (hf : sequenceOf s i = some f) : t.mem.txbuf = f := by
  cases (exec_sends h hf).symm.trans ht
  rfl

theorem isBcdByte_bcdByte {v : Nat} (h : v < 100) : isBcdByte (bcdByte v) = true := by
  simp only [isBcdByte, bcdByte_toNat h, Bool.and_eq_true, decide_eq_true_eq]
  omega

theorem identify_memBank {bank : Byte} (h : 1 ≤ bank.toNat ∧ bank.toNat ≤ 5) :
    identify [0xFE, 0xFE, 0x88, 0xE0, 0x08, 0xA0, bank, 0xFD] = some (.memBank bank) := by
  have hterm := (bank_ne_term h).symm
  rw [show [0xFE, 0xFE, 0x88, 0xE0, 0x08, 0xA0, bank, 0xFD] = [0xFE, 0xFE, 0x88, 0xE0, 0x08] ++ ([0xA0, bank] ++ [0xFD])
    from rfl, identify_frame (by decide) (by simpa using hterm)]
  simp [wireOpOf, wireOp8, bankByte_legal h]

theorem identify_memChan {c : Byte} (h : isBcdByte c = true) :
    identify [0xFE, 0xFE, 0x88, 0xE0, 0x08, c, 0xFD] = some (.memChan c) := by
  have hterm : (0xFD : Byte) ≠ c := by
    rintro rfl
    exact absurd h (by decide)
  rw [show [0xFE, 0xFE, 0x88, 0xE0, 0x08, c, 0xFD] = [0xFE, 0xFE, 0x88, 0xE0, 0x08] ++ ([c] ++ [0xFD]) from rfl,
    identify_frame (by decide) (by simpa using hterm)]
  simp [wireOpOf, wireOp7, h]

theorem identify_modeSet {c : Byte} {sel : BitVec 4} (h : modeName c = some sel) :
    identify [0xFE, 0xFE, 0x88, 0xE0, 0x06, c, 0xFD] = some (.modeSet sel) := by
  have hterm : (0xFD : Byte) ≠ c := by
    rintro rfl
    exact absurd h (by rw [show modeName 0xFD = none by decide]; nofun)
  rw [show [0xFE, 0xFE, 0x88, 0xE0, 0x06, c, 0xFD] = [0xFE, 0xFE, 0x88, 0xE0, 0x06] ++ ([c] ++ [0xFD]) from rfl,
    identify_frame (by decide) (by simpa using hterm)]
  simp [wireOpOf, wireOp7, h]

theorem identify_freqSet {payload : List Byte} (hl : payload.length = 5) (ht : (0xFD : Byte) ∉ payload) :
    identify ([0xFE, 0xFE, 0x88, 0xE0, 0x00] ++ payload ++ [0xFD]) = some (.freqSet payload) := by
  rw [List.append_assoc, identify_frame (by decide) ht]
  match payload, hl with
  | [_, _, _, _, _], _ => rfl

/-- Settles O57: the sequence of each operation, read by its command byte and the bytes behind it. -/
theorem wireShowsTheCommand : Obligations.WireShowsTheCommand := by
  intro s t h
  have read {i : Instr} {f : List Byte} {op : WireOp} (hf : sequenceOf s i = some f) (hop : identify f = some op)
      (ht : exec i s = .next t) : identify t.mem.txbuf = some op := by
    rw [txbuf_after_sends h ht hf, hop]
  refine ⟨read rfl (by decide), ?pwrOn, read rfl (by decide), read rfl (by decide), read rfl (by decide), ?memBank, ?memChan,
    read (sequenceOf_memChan chanBytes_special) (by decide), read rfl (by decide), ?freqSet, read rfl (by decide), ?modeSet,
    read rfl (by decide), read rfl (by decide)⟩
  case pwrOn =>
    intro baud hb
    obtain ⟨k, hk⟩ := leadinCount_of_le baud hb
    refine read (sequenceOf_pwrOn hk) ?_
    rw [identify_withLeadin]
    decide
  case memBank => exact fun bank h1 h5 => read (sequenceOf_memBank ⟨h1, h5⟩) (identify_memBank ⟨h1, h5⟩)
  case memChan =>
    intro val hv ht
    have hbcd := isBcdByte_bcdByte (v := val.toNat) (by omega)
    exact ⟨_, read (sequenceOf_memChan (chanBytes_integer hv)) (identify_memChan hbcd) ht, bcdByte_toNat (by omega)⟩
  case freqSet =>
    intro n hn
    exact read (sequenceOf_freqSet hn) (identify_freqSet (bcdBytes_length _ _) (term_not_mem_freqEnc _))
  case modeSet =>
    intro sel hs
    obtain ⟨c, hc, hv⟩ := modeCode_legal sel hs
    exact read (sequenceOf_modeSet hc) (identify_modeSet (modeName_of_code hv hs))

end Sys2Proof.Machine
end

section

/-! PROOFS. The steps inside a transaction (R19, R120, R124, R132 of `42_transaction_engine.md`) and how the command
operations end when their reply is complete (R151, R159, R161 of `43_civ_commands.md`). -/

namespace Sys2Proof.Machine

/-! ## What a read does (R124) -/

/-- Everything an answer to a read can lead to. -/
theorem afterRead_cases (a : RxAnswer) (s : State) :
    (∃ b, a = .byte b ∧ b ≠ Config.term ∧ s.mem.rxbuf.length + 1 ≠ 64 ∧ s.afterRead a = { s with mem := s.mem.pushRx b }) ∨
    (∃ b, a = .byte b ∧ b ≠ Config.term ∧ s.mem.rxbuf.length + 1 = 64 ∧
      s.afterRead a = State.raise .malformedResponse { s with mem := s.mem.pushRx b }) ∨
    (a = .byte Config.term ∧ s.phase = .rxEcho ∧
      s.afterRead a = State.echoCompletion { s with mem := s.mem.pushRx Config.term }) ∨
    (a = .byte Config.term ∧ s.phase ≠ .rxEcho ∧
      s.afterRead a = State.replyCompletion { s with mem := s.mem.pushRx Config.term }) ∨
    (∀ b, a ≠ .byte b) ∧ ∃ e, e ≠ .noError ∧ s.afterRead a = s.raise e := by
  cases a with
  | byte b =>
    by_cases hb : b = Config.term
    · subst hb
      by_cases hp : s.phase = .rxEcho
      · exact .inr (.inr (.inl ⟨rfl, hp, rxByte_echo hp⟩))
      · refine .inr (.inr (.inr (.inl ⟨rfl, hp, ?_⟩)))
        simp [State.afterRead, State.rxByte, hp]
    · by_cases hl : s.mem.rxbuf.length + 1 = 64
      · exact .inr (.inl ⟨b, rfl, hb, hl, rxByte_full hb hl⟩)
      · exact .inl ⟨b, rfl, hb, hl, rxByte_stored hb hl⟩
  | timeout => exact .inr (.inr (.inr (.inr ⟨nofun, _, by decide, rfl⟩)))
  | fail => exact .inr (.inr (.inr (.inr ⟨nofun, _, by decide, rfl⟩)))

/-- A read touches neither the request port nor the operand registers. -/
theorem afterRead_holds (a : RxAnswer) (s : State) :
    (s.afterRead a).port = s.port ∧ (s.afterRead a).latch = s.latch := by
  obtain ⟨_, _, _, _, ht⟩ | ⟨_, _, _, _, ht⟩ | ⟨_, _, ht⟩ | ⟨_, _, ht⟩ | ⟨_, _, _, ht⟩ := afterRead_cases a s <;>
    rw [ht] <;> exact ⟨rfl, rfl⟩

/-- Settles O9: `exec` outside a ready state, and every step of the engine by its cases. -/
theorem busyBlockHoldsRequests : Obligations.BusyBlockHoldsRequests := by
  refine ⟨fun i s h => exec_held h i, fun s t hp ht => ?_⟩
  obtain ⟨hr, -⟩ | ⟨_, _, _, hr, -⟩ | ⟨_, _, _, hr, -⟩ | ⟨-, htx⟩ | ⟨-, hrx⟩ := step_cases ht
  · exact absurd hr.1 hp
  · exact absurd hr.1 hp
  · exact absurd hr.1 hp
  · obtain ⟨b, e, -, rfl | rfl | rfl⟩ := txStep_cases htx <;> exact ⟨rfl, rfl⟩
  · obtain ⟨-, e, rfl | ⟨a, rfl⟩⟩ := rxStep_cases hrx
    · exact ⟨rfl, rfl⟩
    · exact afterRead_holds _ _

/-- Settles O46: every case of a step, by the phase it ends in. -/
theorem phaseOrder : Obligations.PhaseOrder := by
  intro s t ht
  obtain ⟨-, -, rfl⟩ | ⟨r, rest, i, hr, -, -, hex⟩ | ⟨_, _, _, -, -, -, rfl⟩ | ⟨hp, htx⟩ | ⟨hp, hrx⟩ := step_cases ht
  · exact .inl rfl
  · obtain ⟨_, _, _, hend, -⟩ | ⟨f, -, hbegun⟩ := exec_cases (s := { s with port := rest, latch := r }) hr i
    · cases hend.symm.trans hex
      exact .inr (.inl rfl)
    · cases hbegun.symm.trans hex
      exact .inr (.inr (by simp [hr.1]))
  · exact .inr (.inl rfl)
  · obtain ⟨b, e, -, rfl | rfl | rfl⟩ := txStep_cases htx
    · exact .inl rfl
    · rw [State.txAdvance_phase]
      split
      · exact .inr (.inr (by simp [hp]))
      · exact .inl hp.symm
    · exact .inr (.inl rfl)
  · obtain ⟨-, e, rfl | ⟨a, rfl⟩⟩ := rxStep_cases hrx
    · exact .inl rfl
    · obtain ⟨_, _, _, _, ht⟩ | ⟨_, _, _, _, ht⟩ | ⟨_, hecho, ht⟩ | ⟨_, _, ht⟩ | ⟨_, _, _, ht⟩ := afterRead_cases a _ <;>
        rw [ht]
      · exact .inl rfl
      · exact .inr (.inl rfl)
      · exact .inr (.inr (by simp [show s.phase = .rxEcho from hecho]))
      · exact .inr (.inl rfl)
      · exact .inr (.inl rfl)

/-- Settles O45: no answer to the write, no answer to the read. -/
theorem silentEnvironmentBlockWaits : Obligations.SilentEnvironmentBlockWaits := by
  refine ⟨fun s rest hp hi ha => ?_, fun s rest hp hl ha => ?_⟩
  · rw [step_of_tx hp]
    exact txStep_silent (List.getElem?_eq_getElem hi) ha
  · rw [step_of_reading hp]
    exact rxStep_silent hl ha

/-! ## A read that completes no frame (R124) -/

/-- What the buffer reads as after one byte more. -/
theorem pushRx_reads {s t : State} {b : Byte} (hm : t.mem = s.mem.pushRx b) (hl : s.mem.rxbuf.length < 64) :
    t.rxlen.toNat = s.rxlen.toNat + 1 ∧ t.mem.rxAt s.rxlen.toNat = some b ∧
      ∀ i, i < s.rxlen.toNat → t.mem.rxAt i = s.mem.rxAt i := by
  have hlen : t.mem.rxbuf.length = s.mem.rxbuf.length + 1 := by
    rw [hm, Memory.pushRx_rxbuf, List.length_append, List.length_singleton]
  rw [State.rxlen_toNat (hlen.trans_le hl), State.rxlen_toNat hl.le, hlen, hm]
  exact ⟨rfl, List.getElem?_concat_length, fun i hi => List.getElem?_append_left hi⟩

/-- Settles O39: by the answer, and for a byte by whether it fills the buffer. -/
theorem rxStepWithoutTerminator : Obligations.RxStepWithoutTerminator := by
  intro s a rest hp hl ha hne
  rw [step_of_reading hp, rxStep_answered hl ha]
  cases a with
  | timeout =>
    exact ⟨_, rfl, rfl, rfl, fun _ => rfl, rfl, rfl, rfl, rfl, rfl, nofun, fun _ => ⟨sameBuffers_refl rfl, rfl, rfl⟩, nofun⟩
  | fail =>
    exact ⟨_, rfl, rfl, rfl, fun _ => rfl, rfl, rfl, rfl, rfl, rfl, nofun, nofun, fun _ => ⟨sameBuffers_refl rfl, rfl, rfl⟩⟩
  | byte b =>
    have hb : b ≠ Config.term := fun e => hne (congrArg _ e)
    have hlen := State.rxlen_toNat hl.le
    by_cases hfull : s.mem.rxbuf.length + 1 = 64
    · refine ⟨_, congrArg _ (rxByte_full hb hfull), rfl, rfl, fun _ => rfl, rfl, rfl, rfl, rfl, rfl, fun c hc => ?_, nofun,
        nofun⟩
      cases hc
      obtain ⟨h1, h2, h3⟩ := pushRx_reads (s := s)
        (t := State.raise .malformedResponse { s with mem := s.mem.pushRx b }) rfl hl
      exact ⟨h1, h2, h3, fun _ => by omega, fun _ => ⟨rfl, rfl⟩⟩
    · refine ⟨_, congrArg _ (rxByte_stored hb hfull), rfl, rfl, fun _ => rfl, rfl, rfl, rfl, rfl, rfl, fun c hc => ?_, nofun,
        nofun⟩
      cases hc
      obtain ⟨h1, h2, h3⟩ := pushRx_reads (s := s) (t := { s with mem := s.mem.pushRx b }) rfl hl
      exact ⟨h1, h2, h3, fun _ => ⟨rfl, rfl⟩, fun _ => by omega⟩

/-! ## Set and select operations (R151) -/

theorem interpretFor_set {opid : Byte}
    (h : opid.toNat ∈ [0x30, 0x31, 0x32, 0x33, 0x34, 0x35, 0x36, 0x38, 0x3A, 0x3B, 0x3C]) (o : TxnOutcome)
    (reply : List Byte) (res : Results) : interpretFor opid o reply res = (interpretSet o, res) := by
  have hexec : opid ≠ Opid.execute := fun e => absurd (e ▸ h) (by decide)
  have hfreq : opid ≠ Opid.freqRd := fun e => absurd (e ▸ h) (by decide)
  have hmode : opid ≠ Opid.modeRd := fun e => absurd (e ▸ h) (by decide)
  rw [interpretFor, if_neg hexec, if_neg hfreq, if_neg hmode]

/-- Settles O42: by the classification of the reply. -/
theorem setReplyTable : Obligations.SetReplyTable := by
  intro s rest hp hl ha hop
  obtain ⟨t, hstep, hdone⟩ := step_replyDone hp hl ha (interpretFor_set hop _ _ _)
  refine ⟨t, _, _, _, hstep, hdone, fun h5 => ?data, fun h5 hok => ?ok, fun h5 hng => ?rejected,
    fun h5 hok hng => ?anomalous⟩
  case data =>
    rw [classify_data h5]
    exact ⟨rfl, rfl, rfl⟩
  case ok =>
    rw [classify_ok h5 hok]
    refine ⟨rfl, fun hem => ?_, fun hem => ?_⟩ <;> rw [hem] <;> exact ⟨rfl, rfl⟩
  case rejected =>
    rw [classify_rejected h5 hng]
    exact ⟨rfl, rfl, rfl⟩
  case anomalous =>
    rw [classify_anomalous h5 hok hng]
    exact ⟨rfl, rfl, rfl⟩

/-! ## FREQ.RD (R159) -/

theorem interpretFor_freqRd (o : TxnOutcome) (reply : List Byte) (res : Results) :
    interpretFor 0x37 o reply res = ((interpretFreq o reply res).1, (interpretFreq o reply res).2) := rfl

theorem interpretFreq_payload {reply : List Byte} (h : reply.length = 11) (res : Results) :
    interpretFreq .data reply res = (.fine, { res with value := BitVec.ofNat 34 (freqDec (freqPayload reply)) }) := by
  rw [interpretFreq, if_pos rfl]
  exact if_pos h

theorem interpretFreq_otherLength {reply : List Byte} (h : reply.length ≠ 11) (res : Results) :
    interpretFreq .data reply res = (.malformed, res) := by
  rw [interpretFreq, if_pos rfl]
  exact if_neg h

theorem interpretFreq_status {o : TxnOutcome} (h : o ≠ .data) (reply : List Byte) (res : Results) :
    interpretFreq o reply res = (interpretNoData o, res) := by
  rw [interpretFreq, if_neg h]

/-- The payload stands behind the five bytes of the header, whatever they are. -/
theorem freqPayload_behind {header : List Byte} (h : header.length = 5) (b : Bytes5) (tail : List Byte) :
    freqPayload (header ++ (bytes5List b ++ tail)) = b := by
  have place {k : Nat} (hk : k < 5) :
      (header ++ (bytes5List b ++ tail)).getD (5 + k) 0 = (bytes5List b).getD k 0 := by
    rw [List.getD_append_right _ _ _ _ (by omega), h, Nat.add_sub_cancel_left, List.getD_append _ _ _ _ hk]
  have p0 := place (k := 0) (by omega)
  have p1 := place (k := 1) (by omega)
  have p2 := place (k := 2) (by omega)
  have p3 := place (k := 3) (by omega)
  have p4 := place (k := 4) (by omega)
  simp only [freqPayload, Config.freqFirst, Config.freqLast]
  rw [p0, p1, p2, p3, p4]
  rfl

/-- A reply of six bytes is a status reply, never DATA (R127). -/
theorem classify_status_ne_data {r : List Byte} (h : r.length = 5) : classify (r ++ [0xFD]) ≠ .data := by
  rw [classify_status h]
  split_ifs <;> decide

/-- Settles O43: by the length of the reply, a status reply by its classification. -/
theorem freqRdReplyTable : Obligations.FreqRdReplyTable := by
  intro s rest hp hl ha hop
  have reply_length : (s.mem.rxbuf ++ [0xFD]).length = s.mem.rxbuf.length + 1 := by simp
  obtain ⟨t, hstep, hdone⟩ := step_replyDone hp hl ha (hop ▸ interpretFor_freqRd _ _ _)
  refine ⟨t, _, _, _, _, hstep, hdone, fun b h10 hb => ?payload, fun h10 => ?kept, fun h10 h5 => ?otherLength,
    fun h5 hok => ?ok, fun h5 hng => ?rejected, fun h5 hok hng => ?anomalous⟩
  case payload =>
    have hbytes : s.mem.rxbuf ++ [0xFD] = s.mem.rxbuf.take 5 ++ (bytes5List b ++ [0xFD]) := by
      rw [← List.append_assoc, ← hb, List.take_append_drop]
    have hvalue : freqPayload (s.mem.rxbuf ++ [0xFD]) = b := by
      rw [hbytes]
      exact freqPayload_behind (by rw [List.length_take]; omega) b _
    rw [classify_data (by omega), interpretFreq_payload (by omega), hvalue]
    refine ⟨rfl, ⟨_, rfl, (freqDec_register b).trans (freqDec_nibbles b)⟩, fun hem => ?_, fun hem => ?_⟩ <;> rw [hem] <;>
      exact ⟨rfl, rfl⟩
  case kept =>
    by_cases h5 : s.mem.rxbuf.length = 5
    · rw [interpretFreq_status (classify_status_ne_data h5)]
    · rw [classify_data h5, interpretFreq_otherLength (by omega)]
  case otherLength =>
    rw [classify_data h5, interpretFreq_otherLength (by omega)]
    exact ⟨rfl, rfl, rfl⟩
  case ok =>
    rw [classify_ok h5 hok]
    exact ⟨rfl, rfl, rfl⟩
  case rejected =>
    rw [classify_rejected h5 hng]
    exact ⟨rfl, rfl, rfl⟩
  case anomalous =>
    rw [classify_anomalous h5 hok hng]
    exact ⟨rfl, rfl, rfl⟩

/-! ## MODE.RD (R161) -/

theorem interpretFor_modeRd (o : TxnOutcome) (reply : List Byte) (res : Results) :
    interpretFor 0x39 o reply res = ((interpretMode o reply res).1, (interpretMode o reply res).2) := rfl

theorem interpretMode_known {reply : List Byte} {sel : BitVec 4} (h : reply.length = 7 ∨ reply.length = 8)
    (hm : modeName (reply.getD 5 0) = some sel) (res : Results) :
    interpretMode .data reply res = (.fine, withFilter reply { res with modeSel := sel }) := by
  rw [interpretMode, if_pos rfl, if_pos h, hm]

theorem interpretMode_unknown {reply : List Byte} (h : reply.length = 7 ∨ reply.length = 8)
    (hm : modeName (reply.getD 5 0) = none) (res : Results) : interpretMode .data reply res = (.malformed, res) := by
  rw [interpretMode, if_pos rfl, if_pos h, hm]

theorem interpretMode_otherLength {reply : List Byte} (h : ¬ (reply.length = 7 ∨ reply.length = 8)) (res : Results) :
    interpretMode .data reply res = (.malformed, res) := by
  rw [interpretMode, if_pos rfl, if_neg h]

theorem interpretMode_status {o : TxnOutcome} (h : o ≠ .data) (reply : List Byte) (res : Results) :
    interpretMode o reply res = (interpretNoData o, res) := by
  rw [interpretMode, if_neg h]

theorem withFilter_absent {reply : List Byte} (h : reply.length = 7) (res : Results) : withFilter reply res = res :=
  if_neg (by omega)

theorem withFilter_present {reply : List Byte} (h : reply.length = 8) (res : Results) :
    withFilter reply res =
      { res with filter := BitVec.ofNat 8 (decBcd (reply.getD 6 0).toNat), hasFilter := true } :=
  if_pos h

/-- A decoded byte fits `RES_FILTER` (R14). -/
theorem decBcd_byte_register (b : Byte) : (BitVec.ofNat 8 (decBcd b.toNat)).toNat = decBcd b.toNat := by
  have := decBcd_byte_le b
  rw [BitVec.toNat_ofNat, Nat.mod_eq_of_lt (by omega)]

/-- A byte before the terminator is read at its own index. -/
theorem getD_before_terminator {r : List Byte} {i : Nat} {b : Byte} (h : r[i]? = some b) : (r ++ [0xFD]).getD i 0 = b := by
  have hi : i < r.length := (List.getElem?_eq_some_iff.1 h).1
  rw [List.getD_append _ _ _ _ hi, List.getD_eq_getElem?_getD, h, Option.getD_some]

/-- Settles O44: by the length of the reply and the code at index 5, a status reply by its classification. -/
theorem modeRdReplyTable : Obligations.ModeRdReplyTable := by
  intro s rest hp hl ha hop
  have reply_length : (s.mem.rxbuf ++ [0xFD]).length = s.mem.rxbuf.length + 1 := by simp
  obtain ⟨t, hstep, hdone⟩ := step_replyDone hp hl ha (hop ▸ interpretFor_modeRd _ _ _)
  refine ⟨t, _, _, _, _, hstep, hdone, fun c sel hlen hc hcode hs => ?known, fun c hlen hc hgt hdv => ?unknown,
    fun h5 h6 h7 => ?otherLength, fun h5 => ?kept, fun h5 hok => ?ok, fun h5 hng => ?rejected,
    fun h5 hok hng => ?anomalous⟩
  case known =>
    have hname : modeName ((s.mem.rxbuf ++ [0xFD]).getD 5 0) = some sel := by
      rw [getD_before_terminator hc, modeName_of_code hcode hs]
    rw [classify_data (by omega), interpretMode_known (by omega) hname]
    refine ⟨rfl, fun h6 => withFilter_absent (by omega) _, fun f hf => ?_, fun hem => ?_, fun hem => ?_⟩
    · have h7 : 6 < s.mem.rxbuf.length := (List.getElem?_eq_some_iff.1 hf).1
      refine ⟨_, (decBcd_byte_register f).trans (decBcd_byte f), ?_⟩
      rw [withFilter_present (by omega), getD_before_terminator hf]
    all_goals
      rw [hem]
      exact ⟨rfl, rfl⟩
  case unknown =>
    have hname : modeName ((s.mem.rxbuf ++ [0xFD]).getD 5 0) = none := by
      rw [getD_before_terminator hc, modeName_unknown hgt hdv]
    rw [classify_data (by omega), interpretMode_unknown (by omega) hname]
    exact ⟨rfl, rfl, rfl, rfl⟩
  case otherLength =>
    rw [classify_data h5, interpretMode_otherLength (by omega)]
    exact ⟨rfl, rfl, rfl, rfl⟩
  case kept => rw [interpretMode_status (classify_status_ne_data h5)]
  case ok =>
    rw [classify_ok h5 hok]
    exact ⟨rfl, rfl, rfl⟩
  case rejected =>
    rw [classify_rejected h5 hng]
    exact ⟨rfl, rfl, rfl⟩
  case anomalous =>
    rw [classify_anomalous h5 hok hng]
    exact ⟨rfl, rfl, rfl⟩

end Sys2Proof.Machine
end

section

/-! PROOFS. The invariant of the block (R219): it holds after reset, every kind of step keeps it, and from a state that has
it a step always answers a next state whose trace has its writes before its reads (R130, R133). -/

namespace Sys2Proof.Machine

/-! ## Traces (R133) -/

@[simp] theorem framesRead_nil : framesRead [] = 0 := rfl

@[simp] theorem framesRead_append (tr tr' : List Event) : framesRead (tr ++ tr') = framesRead tr + framesRead tr' :=
  List.count_append

@[simp] theorem framesRead_wrote (b : Byte) (a : TxAnswer) : framesRead [.wrote b a] = 0 := by
  simp [framesRead]

@[simp] theorem framesRead_writesOk (bs : List Byte) : framesRead (writesOk bs) = 0 := by
  simp [framesRead, writesOk, List.count_eq_zero]

/-- A byte read completes a frame exactly when it is the terminator. -/
theorem count_got_eq (reads : List RxAnswer) : framesRead (reads.map .got) = reads.count (.byte Config.term) :=
  List.count_map_of_injective _ _ (fun _ _ h => by cases h; rfl) _

theorem count_byte_eq (bs : List Byte) : (bs.map RxAnswer.byte).count (.byte Config.term) = bs.count Config.term :=
  List.count_map_of_injective _ _ (fun _ _ h => by cases h; rfl) _

theorem readsOf_eq_map_got (bs : List Byte) : readsOf bs = (bs.map RxAnswer.byte).map .got := by
  simp [readsOf]

@[simp] theorem framesRead_readsOf (bs : List Byte) : framesRead (readsOf bs) = bs.count Config.term := by
  rw [readsOf_eq_map_got, count_got_eq, count_byte_eq]

theorem framesRead_got (a : RxAnswer) : framesRead [.got a] = if a = .byte Config.term then 1 else 0 := by
  rw [show [Event.got a] = [a].map .got from rfl, count_got_eq, List.count_singleton]
  simp

theorem readsOf_concat (bs : List Byte) (b : Byte) : readsOf (bs ++ [b]) = readsOf bs ++ [.got (.byte b)] := by
  simp [readsOf]

@[simp] theorem readsOf_append (bs cs : List Byte) : readsOf (bs ++ cs) = readsOf bs ++ readsOf cs := by
  simp [readsOf]

theorem legalTrace_nil (f : List Byte) : LegalTrace f [] := .inl ⟨0, rfl⟩

/-- One write more, answered Ok. -/
theorem writesOk_take_succ {f : List Byte} {k : Nat} {b : Byte} (h : f[k]? = some b) :
    writesOk (f.take (k + 1)) = writesOk (f.take k) ++ [.wrote b .ok] := by
  rw [List.take_add_one, h, writesOk, List.map_append]
  rfl

/-- After all writes and bytes with at most one terminator any answer to a read may follow. -/
theorem legalTrace_read {f bs : List Byte} (h : bs.count Config.term ≤ 1) (a : RxAnswer) :
    LegalTrace f (writesOk f ++ readsOf bs ++ [.got a]) := by
  refine .inr (.inr ⟨bs.map .byte ++ [a], ?_, ?_, ?_⟩)
  · rw [readsOf_eq_map_got, List.append_assoc, List.map_append]
    rfl
  · rw [List.count_append, count_byte_eq]
    have := List.count_le_length (l := [a]) (a := RxAnswer.byte Config.term)
    simp only [List.length_singleton] at this
    omega
  · intro x hx
    rw [List.dropLast_concat] at hx
    obtain ⟨b, -, rfl⟩ := List.mem_map.1 hx
    exact ⟨b, rfl⟩

/-! ## Responses (R123) -/

theorem PartialResponse.count_eq_zero {r : List Byte} (h : PartialResponse r) : r.count Config.term = 0 :=
  List.count_eq_zero.2 h.1

/-- A complete response holds one terminator. -/
theorem IsResponse.count_eq_one {r : List Byte} (h : IsResponse r) : r.count Config.term = 1 := by
  obtain ⟨hlast, hinner, -⟩ := h
  rw [← List.dropLast_append_getLast? _ hlast, List.count_append, List.count_eq_zero.2 hinner]
  simp

/-- The terminator completes a response in progress. -/
theorem PartialResponse.complete {r : List Byte} (h : PartialResponse r) : IsResponse (r ++ [Config.term]) := by
  obtain ⟨hno, hroom⟩ := h
  refine ⟨List.getLast?_concat, ?_, ?_⟩
  · rwa [List.dropLast_concat]
  · rw [List.length_append]
    exact hroom

/-! ## Steps outside a transaction -/

/-- What the environment will answer is no part of the invariant. -/
theorem Inv.withEnv {s : State} (h : Inv s) (e : Env) : Inv { s with env := e } :=
  ⟨h.busy, h.notBoth, h.unreported, h.noErr, h.txbuf, h.rxbuf, h.counters, h.results, h.lines, h.trace, h.outcome, h.shape⟩

/-- In IDLE the port may move on to the request's successors, and the operand registers take its lines. -/
theorem Inv.latched {s : State} {r : Request} {rest : List Request} (h : Inv s) (hp : s.phase = .idle)
    (hport : s.port = r :: rest) : Inv { s with port := rest, latch := r } := by
  obtain ⟨-, hlines⟩ := h.lines
  rw [hport] at hlines
  refine ⟨h.busy, h.notBoth, fun hne => absurd hp hne, h.noErr, h.txbuf, h.rxbuf, h.counters, h.results,
    ⟨hlines r List.mem_cons_self, fun q hq => hlines q (List.mem_cons_of_mem _ hq)⟩, h.trace, h.outcome, ?_⟩
  simp only [PhaseShape, hp]

/-- An operation that completes without a transaction keeps the invariant. -/
theorem Inv.completedQuietly {s t : State} {e : ErrCode} {latch : Request} {res : Results} (h : Inv s)
    (ht : CompletedQuietly s t e latch res) (hlatch : latch.wellFormed = true) (hres : ResultsInRange res)
    (htx : TxbufShape t.mem.txbuf) (hrx : t.mem.rxbuf = s.mem.rxbuf) : Inv t := by
  obtain ⟨hphase, hstatus, rfl, rfl, htxi, hecho, hport, -, htrace⟩ := ht
  constructor
  case busy => simp [hstatus, hphase, Status.finished]
  case notBoth => simp [hstatus, Status.finished]
  case unreported => exact fun hne => absurd hphase hne
  case noErr => exact fun _ => by rw [hstatus]; rfl
  case txbuf => exact htx
  case rxbuf => rw [hrx]; exact h.rxbuf
  case counters => rw [htxi, hecho]; exact h.counters
  case results => exact hres
  case lines => rw [hport]; exact ⟨hlatch, h.lines.2⟩
  case trace => rw [htrace]; exact legalTrace_nil _
  case outcome => simp [hstatus, htrace, Status.finished]
  case shape => simp only [PhaseShape, hphase]

/-- The start of a transaction keeps the invariant. -/
theorem Inv.begun {s : State} {i : Instr} {f : List Byte} (h : Inv s) (hf : sequenceOf s i = some f)
    (hlatch : (i.drive s.latch).wellFormed = true) : Inv (s.begun i f) := by
  have hshape : f ≠ [] ∧ TxbufShape f := by
    by_cases hi : i = .execute
    · subst hi
      obtain ⟨rfl, hne⟩ := sequenceOf_execute.1 hf
      exact ⟨hne, h.txbuf⟩
    · have hseq := isSequence_of_sends hf hi
      exact ⟨hseq.ne_nil, (txbufShape_iff f).2 (.inr hseq)⟩
  obtain ⟨hne, htx⟩ := hshape
  constructor
  case busy => simp [Status.accepted]
  case notBoth => simp [Status.accepted, Status.zero]
  case unreported => exact fun _ => ⟨rfl, rfl, rfl, rfl, isTransactional_of_sends hf _⟩
  case noErr => exact fun _ => rfl
  case txbuf => exact htx
  case rxbuf => exact ⟨by simp, by simp⟩
  case counters => exact ⟨Nat.zero_le _, Nat.zero_le _⟩
  case results => exact resultsInRange_zero
  case lines => exact ⟨hlatch, h.lines.2⟩
  case trace => exact legalTrace_nil _
  case outcome => simp [Status.accepted, Status.zero]
  case shape => exact ⟨List.length_pos_of_ne_nil hne, rfl, rfl, rfl, rfl⟩



/-- The acceptance step of a request whose lines are well-formed keeps the invariant. -/
theorem Inv.exec {s t : State} {i : Instr} (h : Inv s) (hr : s.Ready) (hlatch : (i.drive s.latch).wellFormed = true)
    (ht : exec i s = .next t) : Inv t := by
  obtain ⟨e, res, f, hend, hres, hf⟩ | ⟨f, hf, hbegun⟩ := exec_cases hr i
  · cases hend.symm.trans ht
    refine h.completedQuietly completedQuietly_quietEnd hlatch hres ?_ rfl
    obtain rfl | hseq := hf
    · exact h.txbuf
    · exact (txbufShape_iff f).2 (.inr hseq)
  · cases hbegun.symm.trans ht
    exact h.begun hf hlatch

/-! ## Steps of a transaction -/

/-- An error inside a transaction keeps the invariant: at most one frame has been read, and the event that caused it is
the trace's last. -/
theorem Inv.raised {s t : State} {e : ErrCode} (h : Inv s) (hp : s.phase ≠ .idle) (he : e ≠ .noError)
    (hphase : t.phase = .idle) (hstatus : t.status = { s.status with err := e, errph := s.phase, busy := false, done := true })
    (hkept : t.latch = s.latch ∧ t.results = s.results ∧ t.port = s.port ∧ t.txi = s.txi ∧ t.echolen = s.echolen)
    (htx : t.mem.txbuf = s.mem.txbuf)
    (hrx : Config.term ∉ t.mem.rxbuf.dropLast ∧ t.mem.rxbuf.length ≤ Config.rxMax)
    (htrace : LegalTrace s.mem.txbuf t.trace) (hframes : framesRead t.trace ≠ 2) : Inv t := by
  obtain ⟨hlatch, hresults, hport, htxi, hecho⟩ := hkept
  obtain ⟨hout, -⟩ := h.unreported hp
  constructor
  case busy => simp [hstatus, hphase]
  case notBoth => simp [hstatus]
  case unreported => exact fun hne => absurd hphase hne
  case noErr => simp [hstatus, he]
  case txbuf => rw [htx]; exact h.txbuf
  case rxbuf => exact hrx
  case counters => rw [htxi, hecho]; exact h.counters
  case results => rw [hresults]; exact h.results
  case lines => rw [hlatch, hport]; exact h.lines
  case trace => rw [htx]; exact htrace
  case outcome => simp [hstatus, hout, hframes]
  case shape => simp only [PhaseShape, hphase]

/-- The state goes on inside the transaction: what the phase demands of it is all there is to show. -/
theorem Inv.goesOn {s t : State} (h : Inv s) (hp : s.phase ≠ .idle) (hp' : t.phase ≠ .idle)
    (hstatus : t.status = { s.status with em := t.status.em })
    (hkept : t.latch = s.latch ∧ t.results = s.results ∧ t.port = s.port) (htx : t.mem.txbuf = s.mem.txbuf)
    (hrx : Config.term ∉ t.mem.rxbuf ∧ t.mem.rxbuf.length ≤ Config.rxMax)
    (hcounters : t.txi.toNat ≤ Config.txMax ∧ t.echolen.toNat ≤ Config.rxMax)
    (htrace : LegalTrace s.mem.txbuf t.trace) (hframes : framesRead t.trace ≠ 2) (hshape : PhaseShape t) : Inv t := by
  obtain ⟨hlatch, hresults, hport⟩ := hkept
  obtain ⟨hout, herr, herrph, hres, hop⟩ := h.unreported hp
  obtain ⟨hno, hlen⟩ := hrx
  have hbusy : s.status.busy = true := h.busy.2 hp
  constructor
  case busy => rw [hstatus]; simp [hbusy, hp']
  case notBoth => rw [hstatus]; exact h.notBoth
  case unreported =>
    rw [hstatus, hlatch, hresults]
    exact fun _ => ⟨hout, herr, herrph, hres, hop⟩
  case noErr => rw [hstatus]; exact h.noErr
  case txbuf => rw [htx]; exact h.txbuf
  case rxbuf => exact ⟨fun hmem => hno (List.mem_of_mem_dropLast hmem), hlen⟩
  case counters => exact hcounters
  case results => rw [hresults]; exact h.results
  case lines => rw [hlatch, hport]; exact h.lines
  case trace => rw [htx]; exact htrace
  case outcome => rw [hstatus]; simp [hout, hframes]
  case shape => exact hshape

/-! ### TX (R122) -/

/-- The invariant in TX, by name. -/
theorem Inv.tx_shape {s : State} (h : Inv s) (hp : s.phase = .tx) :
    s.txi.toNat < s.mem.txbuf.length ∧ s.mem.rxbuf = [] ∧ s.echolen = 0 ∧ s.status.em = false ∧
      s.trace = writesOk (s.mem.txbuf.take s.txi.toNat) := by
  have := h.shape
  rwa [PhaseShape, hp] at this

theorem Inv.txbuf_length {s : State} (h : Inv s) : s.mem.txbuf.length ≤ 64 := by
  obtain hnil | ⟨-, -, hlen⟩ := h.txbuf
  · simp [hnil]
  · exact hlen

/-- `TXI` has reached `TXLEN` when it counts the bytes of `TXBUF`. -/
theorem eq_txlen {s : State} {i : BitVec 7} (hi : i.toNat = s.mem.txbuf.length) : i = s.txlen := by
  apply BitVec.eq_of_toNat_eq
  have := i.isLt
  rw [State.txlen, BitVec.toNat_ofNat, hi, Nat.mod_eq_of_lt (by omega)]

/-- A byte taken keeps the invariant, in TX or at the entry into RX_ECHO. -/
theorem Inv.txAdvance {s : State} {b : Byte} (h : Inv s) (hp : s.phase = .tx) (hb : s.mem.txAt s.txi.toNat = some b)
    (e : Env) : Inv (State.txAdvance { s with env := e, trace := s.trace ++ [.wrote b .ok] }) := by
  obtain ⟨hi, hrx, hecho, hem, htrace⟩ := h.tx_shape hp
  have hlen := h.txbuf_length
  have hsucc := txi_succ_toNat hb hlen
  have hwrites : s.trace ++ [.wrote b .ok] = writesOk (s.mem.txbuf.take (s.txi + 1).toNat) := by
    rw [htrace, hsucc, writesOk_take_succ hb]
  apply h.goesOn (by simp [hp])
  case hp' => rw [State.txAdvance_phase]; split <;> decide
  case hstatus => rfl
  case hkept => exact ⟨rfl, rfl, rfl⟩
  case htx => rfl
  case hrx => simp [hrx]
  case hcounters =>
    rw [State.txAdvance_txi, State.txAdvance_echolen, hecho, hsucc]
    exact ⟨by simp only [Config.txMax]; omega, Nat.zero_le _⟩
  case htrace => exact .inl ⟨_, hwrites⟩
  case hframes => rw [State.txAdvance_trace, hwrites, framesRead_writesOk]; decide
  case hshape =>
    by_cases hlast : s.txi.toNat + 1 = s.mem.txbuf.length
    · simp only [PhaseShape, State.txAdvance_phase, if_pos hlast]
      refine ⟨eq_txlen (hsucc.trans hlast), hecho, hem, ?_, ?_⟩
      · rw [State.txAdvance_mem, hrx]
        exact ⟨by simp, by simp [Config.rxMax]⟩
      · rw [State.txAdvance_trace, hwrites, hsucc, hlast, List.take_length, State.txAdvance_mem, hrx]
        simp [readsOf]
    · simp only [PhaseShape, State.txAdvance_phase, if_neg hlast]
      refine ⟨?_, hrx, hecho, hem, hwrites⟩
      change (s.txi + 1).toNat < s.mem.txbuf.length
      omega

/-- A step of TX keeps the invariant. -/
theorem Inv.txStep {s t : State} (h : Inv s) (hp : s.phase = .tx) (ht : txStep s = .next t) : Inv t := by
  obtain ⟨b, e, hb, rfl | rfl | rfl⟩ := txStep_cases ht
  · exact h.withEnv e
  · exact h.txAdvance hp hb e
  · obtain ⟨hi, hrx, -, -, htrace⟩ := h.tx_shape hp
    have hframes : framesRead (s.trace ++ [.wrote b .fail]) = 0 := by simp [htrace]
    have hlegal : LegalTrace s.mem.txbuf (s.trace ++ [.wrote b .fail]) := .inr (.inl ⟨_, b, hb, by rw [htrace]⟩)
    exact h.raised (e := .transportUnavailable) (by simp [hp]) (by decide) rfl rfl ⟨rfl, rfl, rfl, rfl, rfl⟩ rfl h.rxbuf hlegal
      (fun h2 => absurd (hframes.symm.trans h2) (by decide))

/-! ### RX_ECHO and RX_REPLY (R124 to R126) -/

/-- In a read phase every write is done, and the bytes read hold one terminator for each frame completed. -/
theorem Inv.reading_trace {s : State} (h : Inv s) (hp : s.phase = .rxEcho ∨ s.phase = .rxReply) :
    PartialResponse s.mem.rxbuf ∧ ∃ bs, s.trace = writesOk s.mem.txbuf ++ readsOf bs ∧
      bs.count Config.term = if s.phase = .rxEcho then 0 else 1 := by
  have hshape := h.shape
  obtain hp | hp := hp <;> rw [PhaseShape, hp] at hshape
  · obtain ⟨-, -, -, hrx, htrace⟩ := hshape
    exact ⟨hrx, _, htrace, by rw [hp, hrx.count_eq_zero]; rfl⟩
  · obtain ⟨-, hrx, echo, hecho, -, -, htrace⟩ := hshape
    refine ⟨hrx, echo ++ s.mem.rxbuf, ?_, ?_⟩
    · rw [htrace, readsOf_append, List.append_assoc]
    · rw [List.count_append, hecho.count_eq_one, hrx.count_eq_zero, hp]
      rfl

/-- What the trace is once an answer to a read is logged: legal, with one frame more where the answer is the
terminator. -/
theorem Inv.read_logged {s : State} (h : Inv s) (hp : s.phase = .rxEcho ∨ s.phase = .rxReply) (a : RxAnswer) :
    LegalTrace s.mem.txbuf (s.trace ++ [.got a]) ∧
      framesRead (s.trace ++ [.got a]) =
        (if s.phase = .rxEcho then 0 else 1) + if a = .byte Config.term then 1 else 0 := by
  obtain ⟨-, bs, htrace, hcount⟩ := h.reading_trace hp
  rw [htrace]
  constructor
  · refine legalTrace_read ?_ a
    rw [hcount]
    split <;> decide
  · rw [framesRead_append, framesRead_append, framesRead_writesOk, framesRead_readsOf, hcount, framesRead_got, Nat.zero_add]

theorem not_idle_of_reading {s : State} (hp : s.phase = .rxEcho ∨ s.phase = .rxReply) : s.phase ≠ .idle := by
  rcases hp with hp | hp <;> simp [hp]

/-- An answer that is no byte, or a byte that fills the buffer without ending a frame, keeps the invariant. -/
theorem Inv.readFails {s : State} {a : RxAnswer} {m : Memory} {e : ErrCode} (h : Inv s)
    (hp : s.phase = .rxEcho ∨ s.phase = .rxReply) (ha : a ≠ .byte Config.term) (he : e ≠ .noError)
    (htx : m.txbuf = s.mem.txbuf) (hrx : Config.term ∉ m.rxbuf.dropLast ∧ m.rxbuf.length ≤ Config.rxMax) (env : Env) :
    Inv (State.raise e { s with env := env, trace := s.trace ++ [.got a], mem := m }) := by
  obtain ⟨hlegal, hframes⟩ := h.read_logged hp a
  refine h.raised (not_idle_of_reading hp) he rfl rfl ⟨rfl, rfl, rfl, rfl, rfl⟩ htx hrx hlegal ?_
  rw [State.raise_trace, hframes, if_neg ha]
  split <;> decide

/-- A byte stored inside a frame keeps the invariant. -/
theorem Inv.byteStored {s : State} {b : Byte} (h : Inv s) (hp : s.phase = .rxEcho ∨ s.phase = .rxReply)
    (hb : b ≠ Config.term) (hl : s.mem.rxbuf.length + 1 ≠ 64) (env : Env) :
    Inv { s with env := env, trace := s.trace ++ [.got (.byte b)], mem := s.mem.pushRx b } := by
  obtain ⟨hlegal, hframes⟩ := h.read_logged hp (.byte b)
  obtain ⟨⟨hno, hroom⟩, -⟩ := h.reading_trace hp
  have hpart : PartialResponse (s.mem.rxbuf ++ [b]) := by
    refine ⟨by simpa [hno] using hb.symm, ?_⟩
    simp only [Config.rxMax, List.length_append, List.length_singleton] at hroom ⊢
    omega
  refine h.goesOn (not_idle_of_reading hp) (not_idle_of_reading hp) rfl ⟨rfl, rfl, rfl⟩ rfl ⟨hpart.1, hpart.2.le⟩ h.counters
    hlegal ?hframes ?hshape
  case hframes =>
    rw [hframes, if_neg (show RxAnswer.byte b ≠ .byte Config.term by simpa using hb)]
    split <;> decide
  case hshape =>
    have hshape := h.shape
    obtain hp | hp := hp <;> rw [PhaseShape, hp] at hshape <;> simp only [PhaseShape, hp]
    · obtain ⟨htxi, hecho, hem, -, htrace⟩ := hshape
      refine ⟨htxi, hecho, hem, hpart, ?_⟩
      rw [htrace, Memory.pushRx_rxbuf, readsOf_concat, ← List.append_assoc]
      rfl
    · obtain ⟨htxi, -, echo, hresp, hlen, hem, htrace⟩ := hshape
      refine ⟨htxi, hpart, echo, hresp, hlen, hem, ?_⟩
      rw [htrace, Memory.pushRx_rxbuf, readsOf_concat, ← List.append_assoc]
      rfl

/-- The echo's terminator keeps the invariant: the echo is remembered by its length, `EM`, and the trace. -/
theorem Inv.echoCompletion {s : State} (h : Inv s) (hp : s.phase = .rxEcho) (env : Env) :
    Inv (State.echoCompletion
      { s with env := env, trace := s.trace ++ [.got (.byte Config.term)], mem := s.mem.pushRx Config.term }) := by
  obtain ⟨hlegal, hframes⟩ := h.read_logged (.inl hp) (.byte Config.term)
  have hshape := h.shape
  rw [PhaseShape, hp] at hshape
  obtain ⟨htxi, -, -, hpart, htrace⟩ := hshape
  have hresp := hpart.complete
  have hlen : (State.rxlen { s with mem := s.mem.pushRx Config.term }).toNat = (s.mem.rxbuf ++ [Config.term]).length :=
    State.rxlen_toNat hresp.2.2
  refine h.goesOn (by simp [hp]) nofun rfl ⟨rfl, rfl, rfl⟩ rfl ⟨by simp, by simp⟩ ?hcounters hlegal ?hframes ?hshape
  case hcounters => exact ⟨h.counters.1, hlen.trans_le hresp.2.2⟩
  case hframes =>
    rw [State.echoCompletion_trace, hframes, hp]
    decide
  case hshape =>
    refine ⟨htxi, ⟨by simp, by simp [Config.rxMax]⟩, s.mem.rxbuf ++ [Config.term], hresp, hlen, ?_, ?_⟩
    · simp [echoEqual]
    · rw [State.echoCompletion_trace, htrace, readsOf_concat]
      simp [readsOf]

section Ranges

variable {res : Results}

theorem ResultsInRange.setValue (h : ResultsInRange res) {v : BitVec 34} (hv : v.toNat ≤ 16666666665) :
    ResultsInRange { res with value := v } := by
  obtain ⟨hblen, hmode, hfilter, -⟩ := h
  exact ⟨hblen, hmode, hfilter, hv⟩

theorem ResultsInRange.setModeSel (h : ResultsInRange res) {sel : BitVec 4} (hs : sel.toNat ≤ 9) :
    ResultsInRange { res with modeSel := sel } := by
  obtain ⟨hblen, -, hfilter, hvalue⟩ := h
  exact ⟨hblen, hs, hfilter, hvalue⟩

theorem ResultsInRange.setFilter (h : ResultsInRange res) {f : BitVec 8} (hf : f.toNat ≤ 165) (has : Bool) :
    ResultsInRange { res with filter := f, hasFilter := has } := by
  obtain ⟨hblen, hmode, -, hvalue⟩ := h
  exact ⟨hblen, hmode, hf, hvalue⟩

theorem interpretFreq_inRange (h : ResultsInRange res) (o : TxnOutcome) (reply : List Byte) :
    ResultsInRange (interpretFreq o reply res).2 := by
  unfold interpretFreq
  split_ifs
  · refine h.setValue ?_
    rw [freqDec_register]
    exact freqDec_le _
  · exact h
  · exact h

theorem withFilter_inRange (h : ResultsInRange res) (reply : List Byte) : ResultsInRange (withFilter reply res) := by
  unfold withFilter
  split_ifs
  · refine h.setFilter ?_ true
    rw [decBcd_byte_register]
    exact decBcd_byte_le _
  · exact h

theorem interpretMode_inRange (h : ResultsInRange res) (o : TxnOutcome) (reply : List Byte) :
    ResultsInRange (interpretMode o reply res).2 := by
  unfold interpretMode
  split_ifs
  · split
    · next sel hsel =>
      obtain ⟨hs, -⟩ := code_of_modeName hsel
      exact withFilter_inRange (h.setModeSel hs) reply
    · exact h
  · exact h
  · exact h

/-- The interpretation of a reply keeps the result registers within their ranges. -/
theorem interpretFor_inRange (h : ResultsInRange res) (opid : Byte) (o : TxnOutcome) (reply : List Byte) :
    ResultsInRange (interpretFor opid o reply res).2 := by
  unfold interpretFor
  split_ifs
  · exact h
  · exact interpretFreq_inRange h o reply
  · exact interpretMode_inRange h o reply
  · exact h

end Ranges

/-- A classification is always reported (R127). -/
theorem classify_ne_noOutcome (r : List Byte) : classify r ≠ .noOutcome := by
  unfold classify
  split_ifs <;> decide

/-- No error is charged to no phase but IDLE (R179). -/
theorem finalErr_noError (o : TxnOutcome) (em : Bool) (v : Verdict) (h : (finalErr o em v).1 = .noError) :
    (finalErr o em v).2 = .idle := by
  unfold finalErr at h ⊢
  split_ifs at h ⊢
  rfl

/-- The reply's terminator keeps the invariant: two frames have been read, and the outcome is reported. -/
theorem Inv.replyCompletion {s : State} (h : Inv s) (hp : s.phase = .rxReply) (env : Env) :
    Inv (State.replyCompletion
      { s with env := env, trace := s.trace ++ [.got (.byte Config.term)], mem := s.mem.pushRx Config.term }) := by
  obtain ⟨hlegal, hframes⟩ := h.read_logged (.inr hp) (.byte Config.term)
  obtain ⟨hpart, -⟩ := h.reading_trace (.inr hp)
  obtain ⟨-, hinner, hlen⟩ := hpart.complete
  constructor
  case busy => simp [State.replyCompletion]
  case notBoth => simp [State.replyCompletion]
  case unreported => exact fun hne => absurd rfl hne
  case noErr => exact finalErr_noError _ _ _
  case txbuf => exact h.txbuf
  case rxbuf => exact ⟨hinner, hlen⟩
  case counters => exact h.counters
  case results => exact interpretFor_inRange h.results _ _ _
  case lines => exact h.lines
  case trace => exact hlegal
  case outcome =>
    have htwo : framesRead (s.trace ++ [.got (.byte Config.term)]) = 2 := by
      rw [hframes, hp]
      decide
    exact iff_of_true (classify_ne_noOutcome _) htwo
  case shape => exact trivial

/-- A step of a read phase keeps the invariant. -/
theorem Inv.rxStep {s t : State} (h : Inv s) (hp : s.phase = .rxEcho ∨ s.phase = .rxReply) (ht : rxStep s = .next t) :
    Inv t := by
  obtain ⟨hroom, env, rfl | ⟨a, rfl⟩⟩ := rxStep_cases ht
  · exact h.withEnv env
  obtain ⟨⟨hno, -⟩, -⟩ := h.reading_trace hp
  obtain ⟨b, rfl, hb, hl, heq⟩ | ⟨b, rfl, hb, hl, heq⟩ | ⟨rfl, hecho, heq⟩ | ⟨rfl, hne, heq⟩ | ⟨hnobyte, e, he, heq⟩ :=
    afterRead_cases a { s with env := env, trace := s.trace ++ [.got a] } <;> rw [heq]
  · exact h.byteStored hp hb hl env
  · refine h.readFails (a := .byte b) (m := s.mem.pushRx b) (e := .malformedResponse) hp (by simpa using hb) (by decide) rfl
      ⟨?_, ?_⟩ env
    · rw [Memory.pushRx_rxbuf, List.dropLast_concat]
      exact hno
    · rw [Memory.pushRx_rxbuf, List.length_append]
      exact hl.le
  · exact h.echoCompletion hecho env
  · exact h.replyCompletion (hp.resolve_left hne) env
  · exact h.readFails hp (hnobyte _) he rfl h.rxbuf env

/-- Settles O50: every case of a step keeps the invariant. -/
theorem stepKeepsInvariant : Obligations.StepKeepsInvariant := by
  intro s t h ht
  obtain ⟨-, -, rfl⟩ | ⟨r, rest, i, hr, hport, hd, hex⟩ | ⟨r, rest, e, hr, hport, -, rfl⟩ | ⟨hp, htx⟩ | ⟨hp, hrx⟩ :=
    step_cases ht
  · exact h
  · have hs := h.latched hr.1 hport
    refine hs.exec hr ?_ hex
    rw [drive_of_decode hd]
    exact hs.lines.1
  · have hs := h.latched hr.1 hport
    exact hs.completedQuietly (completedQuietly_refuseReserved hr.1) hs.lines.1 resultsInRange_zero h.txbuf rfl
  · exact h.txStep hp htx
  · exact h.rxStep hp hrx

/-! ## Reset (R200, R203) -/

/-- Reset gives the invariant whatever the block was doing, as long as the requests to come have their lines. -/
theorem inv_assertReset {s : State} (h : ∀ r ∈ s.port, r.wellFormed = true) : Inv s.assertReset := by
  constructor
  case busy => simp [Status.zero]
  case notBoth => simp [Status.zero]
  case unreported => exact fun hne => absurd rfl hne
  case noErr => exact fun _ => rfl
  case txbuf => exact .inl rfl
  case rxbuf => exact ⟨by simp, by simp⟩
  case counters => exact ⟨Nat.zero_le _, Nat.zero_le _⟩
  case results => exact resultsInRange_zero
  case lines => exact ⟨rfl, h⟩
  case trace => exact legalTrace_nil _
  case outcome => simp [Status.zero]
  case shape => trivial

/-- Settles O2: the state after reset is reset asserted where nothing is presented. -/
theorem resetSatisfiesInvariant : Obligations.ResetSatisfiesInvariant :=
  inv_assertReset (s := State.reset) nofun

/-- Settles O4: what reset writes is read off, what is outside the block is kept. -/
theorem resetMidOperation : Obligations.ResetMidOperation := by
  intro s h
  obtain ⟨-, hport⟩ := h.lines
  exact ⟨inv_assertReset hport, rfl, rfl, rfl, statusWord_zero, rfl, rfl, rfl, rfl, rfl⟩

/-! ## A step from the invariant (R130, R133) -/

theorem txStep_answers {s : State} {b : Byte} (hb : s.mem.txAt s.txi.toNat = some b) : ∃ t, txStep s = .next t := by
  obtain ⟨_ | _, e, hw⟩ | ⟨e, hw⟩ := txWrite_cases s b <;> simp only [txStep, hb, hw] <;> exact ⟨_, rfl⟩

theorem rxStep_answers {s : State} (hl : s.mem.rxbuf.length < Config.rxMax) : ∃ t, rxStep s = .next t := by
  obtain ⟨a, e, hw⟩ | ⟨e, hw⟩ := rxRead_cases s <;> simp only [rxStep, hl, if_true, hw] <;> exact ⟨_, rfl⟩

/-- A ready block always answers a next state. -/
theorem step_answers_of_ready {s : State} (h : s.Ready) : ∃ t, step s = .next t := by
  cases hport : s.port with
  | nil => exact ⟨s, step_waiting h hport⟩
  | cons r rest =>
    cases hd : decode r with
    | ok i =>
      rw [step_presented h hport hd]
      exact everyRequestAnswersNext i _
    | error e => exact ⟨_, step_reserved h hport hd⟩

/-- Settles O51: in each phase the invariant gives the step what it needs. -/
theorem invariantStatesAlwaysStep : Obligations.InvariantStatesAlwaysStep := by
  intro s h
  have reading (hp : s.phase = .rxEcho ∨ s.phase = .rxReply) : ∃ t, step s = .next t := by
    obtain ⟨⟨-, hroom⟩, -⟩ := h.reading_trace hp
    rw [step_of_reading hp]
    exact rxStep_answers hroom
  cases hp : s.phase with
  | idle =>
    have hbusy : s.status.busy = false := by
      rw [← Bool.not_eq_true, h.busy]
      exact not_not.2 hp
    exact step_answers_of_ready ⟨hp, hbusy⟩
  | tx =>
    obtain ⟨hi, -⟩ := h.tx_shape hp
    rw [step_of_tx hp]
    exact txStep_answers (List.getElem?_eq_getElem hi)
  | rxEcho => exact reading (.inl hp)
  | rxReply => exact reading (.inr hp)

theorem got_not_mem_writesOk (bs : List Byte) (a : RxAnswer) : Event.got a ∉ writesOk bs := by
  intro h
  obtain ⟨b, -, hb⟩ := List.mem_map.1 h
  cases hb

/-- Where a legal trace has a read, it is every byte written and taken, and then reads. -/
theorem LegalTrace.eq_of_got {f : List Byte} {tr : List Event} (h : LegalTrace f tr) {a : RxAnswer} (ha : .got a ∈ tr) :
    ∃ reads : List RxAnswer, tr = writesOk f ++ reads.map .got := by
  obtain ⟨k, rfl⟩ | ⟨k, b, -, rfl⟩ | ⟨reads, rfl, -⟩ := h
  · exact absurd ha (got_not_mem_writesOk _ _)
  · simp [got_not_mem_writesOk] at ha
  · exact ⟨reads, rfl⟩

section WritesThenReads

variable {f : List Byte} {reads : List RxAnswer}

theorem writesOk_length (f : List Byte) : (writesOk f).length = f.length := List.length_map _

theorem writes_at {i : Nat} (hi : i < f.length) :
    (writesOk f ++ reads.map .got)[i]? = f[i]?.map fun b => Event.wrote b .ok := by
  rw [List.getElem?_append_left (by rwa [writesOk_length]), writesOk, List.getElem?_map]

theorem no_write_at {i : Nat} (hi : f.length ≤ i) (b : Byte) (w : TxAnswer) :
    (writesOk f ++ reads.map .got)[i]? ≠ some (.wrote b w) := by
  rw [List.getElem?_append_right (by rwa [writesOk_length]), List.getElem?_map]
  simp

theorem no_read_at {i : Nat} (hi : i < f.length) (a : RxAnswer) :
    (writesOk f ++ reads.map .got)[i]? ≠ some (.got a) := by
  rw [writes_at hi]
  simp

end WritesThenReads

/-- An acceptance begins with the empty trace (R133). -/
theorem trace_of_acceptance {s t : State} (hp : s.phase = .idle) (hport : s.port ≠ []) (ht : step s = .next t) :
    t.trace = [] := by
  obtain ⟨-, hnil, -⟩ | ⟨r, rest, i, hr, -, -, hex⟩ | ⟨_, _, _, -, -, -, rfl⟩ | ⟨htx, -⟩ | ⟨hrx, -⟩ := step_cases ht
  · exact absurd hnil hport
  · obtain ⟨-, -, -, htrace, -⟩ := acceptanceStepFrame i { s with port := rest, latch := r } t hr hex
    exact htrace
  · rfl
  · simp [hp] at htx
  · simp [hp] at hrx

/-- Settles O52: the trace after the step is legal, and where it has a read it is all writes and then reads. -/
theorem writesPrecedeReads : Obligations.WritesPrecedeReads := by
  intro s t h ht
  have hlegal := (stepKeepsInvariant s t h ht).trace
  have shape {j : Nat} {a : RxAnswer} (hj : t.trace[j]? = some (.got a)) :
      ∃ reads : List RxAnswer, t.trace = writesOk t.mem.txbuf ++ reads.map .got :=
    hlegal.eq_of_got (List.mem_of_getElem? hj)
  have read_behind {j : Nat} {a : RxAnswer} (hj : t.trace[j]? = some (.got a)) : t.mem.txbuf.length ≤ j := by
    obtain ⟨reads, htr⟩ := shape hj
    rw [htr] at hj
    exact Nat.le_of_not_lt fun hlt => no_read_at hlt a hj
  refine ⟨fun i j b w a hi hj => ?_, fun j a hj => ⟨read_behind hj, fun i hi => ?_, fun i hi b w => ?_⟩,
    fun hp hport => trace_of_acceptance hp hport ht⟩
  all_goals obtain ⟨reads, htr⟩ := shape hj
  · have hlt : i < t.mem.txbuf.length := by
      rw [htr] at hi
      exact Nat.lt_of_not_le fun hle => no_write_at hle b w hi
    exact hlt.trans_le (read_behind hj)
  · rw [htr]
    exact writes_at hi
  · rw [htr]
    exact no_write_at hi b w

end Sys2Proof.Machine
end

section

/-! PROOFS. Whole transactions (R121, R131, R132, R150, R159): the run of the writes, the run of one frame's reads, their
agreement with the one function `TXN`, and the whole operations that begin with a presented request. -/

namespace Sys2Proof.Machine

/-! ## The run of the writes (R122) -/

/-- The first `k` bytes of `TXBUF` are taken; `more` is what the environment answers to writes from then on. -/
def State.afterWrites (k : Nat) (more : List (Option TxAnswer)) (s : State) : State :=
  { s with
    txi := BitVec.ofNat 7 k
    phase := if k = s.mem.txbuf.length then .rxEcho else .tx
    env := { s.env with tx := more }
    trace := s.trace ++ writesOk (s.mem.txbuf.take k) }

/-- A count of bytes within `TXBUF` is what `TXI` holds. -/
theorem txi_of_count {k : Nat} (hk : k ≤ 64) : (BitVec.ofNat 7 k).toNat = k := by
  rw [BitVec.toNat_ofNat, Nat.mod_eq_of_lt (by omega)]

section Writes

variable {s : State} {k : Nat} {more : List (Option TxAnswer)}

theorem afterWrites_txAt (hs : TxnAtStart s) (hk : k < s.mem.txbuf.length) (m : List (Option TxAnswer)) :
    (s.afterWrites k m).mem.txAt (s.afterWrites k m).txi.toNat = some s.mem.txbuf[k] := by
  have hfits : s.mem.txbuf.length ≤ 64 := hs.fits
  change s.mem.txbuf[(BitVec.ofNat 7 k).toNat]? = _
  rw [txi_of_count (by omega), List.getElem?_eq_getElem hk]

/-- One byte more is taken (R122). -/
theorem step_afterWrites (hs : TxnAtStart s) (hk : k < s.mem.txbuf.length) :
    step (s.afterWrites k (some .ok :: more)) = .next (s.afterWrites (k + 1) more) := by
  have hfits : s.mem.txbuf.length ≤ 64 := hs.fits
  have hphase : (s.afterWrites k (some .ok :: more)).phase = .tx := if_neg (by omega)
  rw [step_of_tx hphase, txStep_ok (afterWrites_txAt hs hk _) rfl]
  have hcount : (BitVec.ofNat 7 k).toNat = k := txi_of_count (by omega)
  simp only [State.txAdvance, State.afterWrites, hcount, BitVec.ofNat_add,
    writesOk_take_succ (List.getElem?_eq_getElem hk), List.append_assoc]
  rfl

/-- The bytes taken one after the other from the start of the transaction. -/
theorem run_writes (hs : TxnAtStart s) (hk : k ≤ s.mem.txbuf.length)
    (henv : s.env.tx = List.replicate k (some .ok) ++ more) :
    Host.Core.run Sys2Proof.core k s = .next (s.afterWrites k more) := by
  induction k generalizing more with
  | zero =>
    have hne : ¬ 0 = s.mem.txbuf.length := fun e => hs.built (List.length_eq_zero_iff.1 e.symm)
    have hstart : s.afterWrites 0 more = s := by
      simp only [State.afterWrites, if_neg hne, ← hs.phase]
      rw [List.replicate_zero, List.nil_append] at henv
      rw [← henv, show BitVec.ofNat 7 0 = s.txi from hs.txi.symm, List.take_zero, writesOk, List.map_nil, List.append_nil]
    rw [hstart]
    rfl
  | succ k ih =>
    rw [List.replicate_succ', List.append_assoc] at henv
    exact run_append (ih (by omega) henv) (run_one (step_afterWrites hs hk))

end Writes

/-! ## The run of a frame's reads (R124) -/

/-- The bytes `bs` are stored behind those of `RXBUF`; `more` is what the environment answers to reads from then on. -/
def State.afterReads (bs : List Byte) (more : List (Option RxAnswer)) (s : State) : State :=
  { s with
    mem := { s.mem with rxbuf := s.mem.rxbuf ++ bs }
    env := { s.env with rx := more }
    trace := s.trace ++ readsOf bs }

/-- One byte that ends no frame and leaves room is stored. -/
theorem step_stored {s : State} {b : Byte} {more : List (Option RxAnswer)} (hp : s.phase = .rxEcho ∨ s.phase = .rxReply)
    (hb : b ≠ Config.term) (hl : s.mem.rxbuf.length + 1 < 64) (henv : s.env.rx = some (.byte b) :: more) :
    step s = .next (s.afterReads [b] more) := by
  rw [step_of_reading hp, rxStep_answered (show _ < 64 by omega) henv]
  exact congrArg _ (rxByte_stored hb (Nat.ne_of_lt hl))

theorem afterReads_afterReads (bs cs : List Byte) (m m' : List (Option RxAnswer)) (s : State) :
    (s.afterReads bs m).afterReads cs m' = s.afterReads (bs ++ cs) m' := by
  simp only [State.afterReads, readsOf_append, List.append_assoc]

theorem run_reads {s : State} {bs : List Byte} {more : List (Option RxAnswer)}
    (hp : s.phase = .rxEcho ∨ s.phase = .rxReply) (hno : Config.term ∉ bs) (hl : s.mem.rxbuf.length + bs.length < 64)
    (henv : s.env.rx = bs.map (fun b => some (.byte b)) ++ more) :
    Host.Core.run Sys2Proof.core bs.length s = .next (s.afterReads bs more) := by
  induction bs generalizing s with
  | nil =>
    have hstart : s.afterReads [] more = s := by
      rw [List.map_nil, List.nil_append] at henv
      simp only [State.afterReads, readsOf, List.map_nil, List.append_nil, ← henv]
    rw [hstart]
    rfl
  | cons b bs ih =>
    simp only [List.mem_cons, not_or, List.length_cons, List.map_cons, List.cons_append] at hno hl henv
    obtain ⟨hb, hno⟩ := hno
    have hstep := step_stored hp (fun e => hb e.symm) (by omega) henv
    have hroom : (s.afterReads [b] (bs.map (fun b => some (.byte b)) ++ more)).mem.rxbuf.length + bs.length < 64 := by
      simp only [State.afterReads, List.length_append, List.length_singleton]
      omega
    have hphase : (s.afterReads [b] (bs.map (fun b => some (.byte b)) ++ more)).phase = .rxEcho ∨
        (s.afterReads [b] (bs.map (fun b => some (.byte b)) ++ more)).phase = .rxReply := hp
    rw [List.length_cons, run_next _ hstep, ih hphase hno hroom rfl, afterReads_afterReads, List.singleton_append]

/-- The answer `x` ends the read of a frame of which `bs` was stored before. -/
theorem run_frame {s : State} {bs : List Byte} {x : RxAnswer} {more : List (Option RxAnswer)}
    (hp : s.phase = .rxEcho ∨ s.phase = .rxReply) (hno : Config.term ∉ bs) (hl : s.mem.rxbuf.length + bs.length < 64)
    (henv : s.env.rx = bs.map (fun b => some (.byte b)) ++ some x :: more) :
    Host.Core.run Sys2Proof.core (bs.length + 1) s =
      .next (State.afterRead x { s.afterReads bs more with trace := (s.afterReads bs more).trace ++ [.got x] }) := by
  refine run_append (run_reads hp hno hl henv) (run_one ?_)
  have hroom : (s.afterReads bs (some x :: more)).mem.rxbuf.length < 64 := by
    simpa only [State.afterReads, List.length_append] using hl
  have hphase : (s.afterReads bs (some x :: more)).phase = .rxEcho ∨ (s.afterReads bs (some x :: more)).phase = .rxReply := hp
  rw [step_of_reading hphase, rxStep_answered hroom rfl]
  rfl

/-! ## READ_FRAME (R123) -/

/-- The answer to a read, the bytes `buf` stored before it, ends the read of a frame with a verdict. -/
inductive EndsFrame (buf : List Byte) : RxAnswer → FrameVerdict → Prop where
  | complete : EndsFrame buf (.byte Config.term) (.frame (buf ++ [Config.term]))
  | overflow {b : Byte} (hb : b ≠ Config.term) (hl : buf.length + 1 = 64) :
      EndsFrame buf (.byte b) (.err .malformedResponse (buf ++ [b]))
  | timeout : EndsFrame buf .timeout (.err .timeout buf)
  | fail : EndsFrame buf .fail (.err .transportUnavailable buf)

/-- From the answers `a` bytes that are no terminator are stored behind `buf` while there is room, and the next answer ends
the frame's read with the verdict `v`, leaving the answers `rest`. -/
def ReadsFrame (buf : List Byte) (a : List RxAnswer) (v : FrameVerdict) (rest : List RxAnswer) : Prop :=
  ∃ bs x, Config.term ∉ bs ∧ buf.length + bs.length < 64 ∧ a = bs.map .byte ++ x :: rest ∧ EndsFrame (buf ++ bs) x v

theorem ReadsFrame.now {buf : List Byte} {x : RxAnswer} {v : FrameVerdict} {rest : List RxAnswer} (hl : buf.length < 64)
    (hx : EndsFrame buf x v) : ReadsFrame buf (x :: rest) v rest :=
  ⟨[], x, by simp, hl, rfl, by rwa [List.append_nil]⟩

theorem ReadsFrame.cons {buf : List Byte} {b : Byte} {a : List RxAnswer} {v : FrameVerdict} {rest : List RxAnswer}
    (hb : b ≠ Config.term) (h : ReadsFrame (buf ++ [b]) a v rest) : ReadsFrame buf (.byte b :: a) v rest := by
  obtain ⟨bs, x, hno, hlen, rfl, hx⟩ := h
  rw [List.append_assoc, List.singleton_append] at hx
  refine ⟨b :: bs, x, ?_, ?_, rfl, hx⟩
  · simp only [List.mem_cons, not_or]
    exact ⟨fun e => hb e.symm, hno⟩
  · simp only [List.length_append, List.length_cons, List.length_nil] at hlen ⊢
    omega

/-- `READ_FRAME` reads a frame so. -/
theorem readFrame_reads {buf : List Byte} {a : List RxAnswer} {v : FrameVerdict} {rest : List RxAnswer}
    (hl : buf.length < 64) (h : readFrame buf a = some (v, rest)) : ReadsFrame buf a v rest := by
  induction a generalizing buf with
  | nil => cases h
  | cons x a ih =>
    cases x with
    | timeout =>
      cases h
      exact .now hl .timeout
    | fail =>
      cases h
      exact .now hl .fail
    | byte b =>
      rw [readFrame] at h
      split_ifs at h with hb hfull
      · cases h
        subst hb
        exact .now hl .complete
      · cases h
        rw [List.length_append, List.length_singleton] at hfull
        exact .now hl (.overflow hb hfull)
      · have hroom : (buf ++ [b]).length < 64 := by
          simp only [Config.rxMax, List.length_append, List.length_singleton] at hfull ⊢
          omega
        exact (ih hroom h).cons hb

theorem EndsFrame.frame_eq {buf f : List Byte} {x : RxAnswer} (h : EndsFrame buf x (.frame f)) :
    x = .byte Config.term ∧ f = buf ++ [Config.term] := by
  cases h
  exact ⟨rfl, rfl⟩

/-- An answer that ends a frame's read with an error ends the operation with it (R124). -/
theorem EndsFrame.afterRead_err {s : State} {x : RxAnswer} {e : ErrCode} {r : List Byte}
    (h : EndsFrame s.mem.rxbuf x (.err e r)) :
    s.afterRead x = State.raise e { s with mem := { s.mem with rxbuf := r } } := by
  cases h with
  | overflow hb hl => exact rxByte_full hb hl
  | timeout => rfl
  | fail => rfl

/-- `READ_FRAME` and the block's reads from an empty buffer: at most 64 steps, and in the last of them the answer that
ends the frame is taken. -/
theorem run_readFrame {s : State} {a : List RxAnswer} {more : List (Option RxAnswer)} {v : FrameVerdict}
    {rest : List RxAnswer} (hp : s.phase = .rxEcho ∨ s.phase = .rxReply) (hrx : s.mem.rxbuf = [])
    (henv : s.env.rx = a.map some ++ more) (h : readFrame [] a = some (v, rest)) :
    ∃ n u x, n ≤ 64 ∧ Host.Core.run Sys2Proof.core n s = .next (State.afterRead x u) ∧ EndsFrame u.mem.rxbuf x v ∧
      u.mem.rxbuf.length < 64 ∧
      ∃ tr bs, u = { s with
        mem := { s.mem with rxbuf := bs }
        env := { s.env with rx := rest.map some ++ more }
        trace := tr } := by
  obtain ⟨bs, x, hno, hlen, rfl, hx⟩ := readFrame_reads (by simp) h
  simp only [List.nil_append, List.length_nil, Nat.zero_add] at hlen hx
  have henv' : s.env.rx = bs.map (fun b => some (.byte b)) ++ some x :: (rest.map some ++ more) := by
    simpa [Function.comp_def] using henv
  refine ⟨bs.length + 1, _, x, hlen, run_frame hp hno (by simpa [hrx] using hlen) henv', ?_, ?_,
    s.trace ++ readsOf bs ++ [.got x], bs, ?_⟩
  · simpa [State.afterReads, hrx] using hx
  · simpa [State.afterReads, hrx] using hlen
  · simp only [State.afterReads, hrx, List.nil_append]

/-! ## TXN (R131) -/

/-- What a transaction's end says depends only on what stays the same through it. -/
theorem TxnEnded.of_kept {s u t : State} {r : TxnResult} {more : List (Option RxAnswer)} (h : TxnEnded u t r more)
    (hlatch : u.latch = s.latch) (hresults : u.results = s.results) (hport : u.port = s.port)
    (htx : u.mem.txbuf = s.mem.txbuf) : TxnEnded s t r more where
  phase := h.phase
  busy := h.busy
  done := h.done
  em := h.em
  outcome := h.outcome
  error := by
    rw [h.error]
    simp only [endError, interpreted, hlatch, hresults]
  results := by
    rw [h.results]
    simp only [endResults, interpreted, hlatch, hresults]
  txi := h.txi
  echolen := h.echolen
  rx := h.rx
  tx := h.tx.trans htx
  latch := h.latch.trans hlatch
  port := h.port.trans hport
  residue := h.residue

/-- The reply stage: the small steps from RX_REPLY end in the values of `TXN`. -/
theorem run_txnReply {s : State} {a : List RxAnswer} {more : List (Option RxAnswer)} {r : TxnResult}
    (hp : s.phase = .rxReply) (hrx : s.mem.rxbuf = []) (hout : s.status.outcome = .noOutcome)
    (henv : s.env.rx = a.map some ++ more)
    (h : txnReply s.txi.toNat s.status.em s.echolen.toNat a = some r) :
    ∃ n t, n ≤ 64 ∧ Host.Core.run Sys2Proof.core n s = .next t ∧ TxnEnded s t r more := by
  unfold txnReply at h
  split at h
  · cases h
  · next e buf rest hread =>
    cases h
    obtain ⟨n, u, x, hn, hrun, hx, -, tr, bs, rfl⟩ := run_readFrame (.inr hp) hrx henv hread
    rw [hx.afterRead_err] at hrun
    exact ⟨n, _, hn, hrun, rfl, rfl, rfl, rfl, hout, by rw [State.raise_status, endError, ← hp], rfl, rfl, rfl, rfl, rfl, rfl,
      rfl, rfl⟩
  · next reply rest hread =>
    cases h
    obtain ⟨n, u, x, hn, hrun, hx, -, tr, bs, hu⟩ := run_readFrame (.inr hp) hrx henv hread
    obtain ⟨rfl, rfl⟩ := hx.frame_eq
    rw [State.afterRead, rxByte_reply (by rw [hu]; exact hp)] at hrun
    subst hu
    exact ⟨n, _, hn, hrun, rfl, rfl, rfl, rfl, rfl, rfl, rfl, rfl, rfl, rfl, rfl, rfl, rfl, rfl⟩

/-- The echo stage: the small steps from RX_ECHO end in the values of `TXN`. -/
theorem run_txnEcho {s : State} {a : List RxAnswer} {more : List (Option RxAnswer)} {r : TxnResult}
    (hp : s.phase = .rxEcho) (hrx : s.mem.rxbuf = []) (hout : s.status.outcome = .noOutcome) (hem : s.status.em = false)
    (hecho : s.echolen = 0) (htxi : s.txi.toNat = s.mem.txbuf.length) (henv : s.env.rx = a.map some ++ more)
    (h : txnEcho s.mem.txbuf a = some r) :
    ∃ n t, n ≤ 2 * 64 ∧ Host.Core.run Sys2Proof.core n s = .next t ∧ TxnEnded s t r more := by
  unfold txnEcho at h
  split at h
  · cases h
  · next e buf rest hread =>
    cases h
    obtain ⟨n, u, x, hn, hrun, hx, -, tr, bs, rfl⟩ := run_readFrame (.inl hp) hrx henv hread
    rw [hx.afterRead_err] at hrun
    exact ⟨n, _, by omega, hrun, rfl, rfl, rfl, hem, hout, by rw [State.raise_status, endError, ← hp], rfl, htxi,
      by rw [State.raise_echolen, hecho]; rfl, rfl, rfl, rfl, rfl, rfl⟩
  · next echo rest hread =>
    obtain ⟨n, u, x, hn, hrun, hx, hroom, tr, bs, hu⟩ := run_readFrame (.inl hp) hrx henv hread
    obtain ⟨rfl, rfl⟩ := hx.frame_eq
    rw [State.afterRead, rxByte_echo (by rw [hu]; exact hp)] at hrun
    obtain ⟨v, hv⟩ : ∃ v, v = State.echoCompletion { u with mem := u.mem.pushRx Config.term } := ⟨_, rfl⟩
    have hecholen : v.echolen.toNat = (u.mem.rxbuf ++ [Config.term]).length := by
      rw [hv, State.echoCompletion_echolen]
      exact State.rxlen_toNat (by simpa using hroom)
    have hem : v.status.em = !echoEqual (u.mem.rxbuf ++ [Config.term]) s.mem.txbuf := by
      rw [hv, hu]
      rfl
    have hkept : v.phase = .rxReply ∧ v.mem = { s.mem with rxbuf := [] } ∧ v.status.outcome = .noOutcome ∧
        v.env.rx = rest.map some ++ more ∧ v.latch = s.latch ∧ v.results = s.results ∧ v.port = s.port ∧ v.txi = s.txi := by
      rw [hv, hu]
      exact ⟨rfl, rfl, hout, rfl, rfl, rfl, rfl, rfl⟩
    obtain ⟨hpv, hmem, houtv, henvv, hlatch, hresults, hport, htxiv⟩ := hkept
    rw [← hecholen, ← hem, ← htxi, ← htxiv] at h
    obtain ⟨n', t, hn', hrun', hend⟩ := run_txnReply hpv (by rw [hmem]) houtv henvv h
    rw [← hv] at hrun
    exact ⟨n + n', t, by omega, run_append hrun hrun', hend.of_kept hlatch hresults hport (by rw [hmem])⟩

/-- The writes of `TXN` are all taken, or taken up to one that fails. -/
theorem writeAll_cases {i n : Nat} {w : List TxAnswer} {v : WriteVerdict} (h : writeAll i n w = some v) :
    (v = { sent := i + n, failed := false } ∧ ∃ rest, w = List.replicate n .ok ++ rest) ∨
    ∃ k rest, k < n ∧ v = { sent := i + k, failed := true } ∧ w = List.replicate k .ok ++ .fail :: rest := by
  induction n generalizing i w with
  | zero =>
    cases h
    exact .inl ⟨rfl, w, rfl⟩
  | succ n ih =>
    cases w with
    | nil => cases h
    | cons a w =>
      cases a with
      | fail =>
        cases h
        exact .inr ⟨0, w, Nat.succ_pos n, rfl, rfl⟩
      | ok =>
        obtain ⟨rfl, rest, rfl⟩ | ⟨k, rest, hk, rfl, rfl⟩ := ih h
        · exact .inl ⟨by rw [Nat.add_assoc, Nat.add_comm 1], rest, rfl⟩
        · exact .inr ⟨k + 1, rest, by omega, by rw [Nat.add_assoc, Nat.add_comm 1], rfl⟩

/-- A write that fails after `k` bytes were taken ends the transaction (R122). -/
theorem step_afterWrites_fail {s : State} {k : Nat} {more : List (Option TxAnswer)} (hs : TxnAtStart s)
    (hk : k < s.mem.txbuf.length) :
    ∃ b, step (s.afterWrites k (some .fail :: more)) = .next (State.raise .transportUnavailable
      { s.afterWrites k more with trace := (s.afterWrites k more).trace ++ [.wrote b .fail] }) := by
  have hphase : (s.afterWrites k (some .fail :: more)).phase = .tx := if_neg (by omega)
  refine ⟨s.mem.txbuf[k], ?_⟩
  rw [step_of_tx hphase, txStep_fail (afterWrites_txAt hs hk _) rfl]
  rfl

/-- Settles O53: the writes' run, and behind it, where all were taken, the echo stage. -/
theorem smallStepsAgreeWithTxn : Obligations.SmallStepsAgreeWithTxn := by
  intro s w a moreW moreA r hs htx hrx h
  have hfits : s.mem.txbuf.length ≤ 64 := hs.fits
  unfold txn at h
  split at h
  · cases h
  next v hv =>
    obtain ⟨rfl, w', rfl⟩ | ⟨k, w', hk, rfl, rfl⟩ := writeAll_cases hv
    · simp only [Bool.false_eq_true, if_false] at h
      have hwrites := run_writes (more := w'.map some ++ moreW) hs le_rfl (by simpa using htx)
      have htxi : (BitVec.ofNat 7 s.mem.txbuf.length).toNat = s.mem.txbuf.length := txi_of_count hfits
      obtain ⟨n, t, hn, hrun, hend⟩ := run_txnEcho (s := s.afterWrites s.mem.txbuf.length (w'.map some ++ moreW))
        (if_pos rfl) hs.rxbuf hs.outcome hs.em hs.echolen htxi hrx h
      exact ⟨_, t, by omega, run_append hwrites hrun, hend.of_kept rfl rfl rfl rfl⟩
    · simp only [if_true, Nat.zero_add] at h
      cases h
      have hwrites := run_writes (more := some .fail :: (w'.map some ++ moreW)) hs hk.le (by simpa using htx)
      obtain ⟨b, hstep⟩ := step_afterWrites_fail (more := w'.map some ++ moreW) hs hk
      have hphase : (s.afterWrites k (w'.map some ++ moreW)).phase = .tx := if_neg (by omega)
      refine ⟨k + 1, _, by omega, run_append hwrites (run_one hstep), rfl, rfl, rfl, hs.em, hs.outcome, ?error, rfl, ?txi,
        ?echolen, hs.rxbuf, rfl, rfl, rfl, hrx⟩
      case error => rw [State.raise_status, endError, ← hphase]
      case txi => exact txi_of_count (by omega)
      case echolen =>
        change s.echolen.toNat = 0
        rw [hs.echolen]
        rfl

/-! ## The whole operation (R121, R150) -/

theorem txnAtStart_begun {s : State} {i : Instr} {f : List Byte} (hne : f ≠ []) (hl : f.length ≤ 64) :
    TxnAtStart (s.begun i f) :=
  ⟨rfl, rfl, rfl, rfl, rfl, rfl, hne, hl⟩

/-- A presented request that sends `f` begins its transaction by one step. -/
theorem step_sends {s : State} {q : Request} {rest : List Request} {i : Instr} {f : List Byte} (h : s.Ready)
    (hp : s.port = q :: rest) (hd : decode q = .ok i) (hf : sequenceOf s i = some f) :
    step s = .next (State.begun i f { s with port := rest, latch := q }) := by
  have hf' : sequenceOf { s with port := rest, latch := q } i = some f := by
    rw [← hf]
    cases i <;> rfl
  rw [step_presented h hp hd]
  exact exec_sends h hf'

/-- Settles O55: the acceptance step, and then the transaction from its start. -/
theorem requestRunsItsTransaction : Obligations.RequestRunsItsTransaction := by
  intro s q rest i f w a moreW moreA r h hwf hp hd hf htx hrx htxn
  obtain ⟨hne, hl⟩ := sends_fits hf hwf
  obtain ⟨n, t, hn, hrun, hend⟩ :=
    smallStepsAgreeWithTxn (State.begun i f { s with port := rest, latch := q }) w a moreW moreA r (txnAtStart_begun hne hl)
      htx hrx htxn
  have hn' : n ≤ f.length + 2 * 64 := hn
  exact ⟨1 + n, t, by omega, run_append (run_one (step_sends h hp hd hf)) hrun,
    hend.of_kept (drive_of_decode hd) rfl rfl rfl⟩

/-! ## FREQ.RD, from the request to the frequency (R159) -/

/-- The frame of FREQ.RD (R74). -/
def freqRdFrame : List Byte := [0xFE, 0xFE, 0x88, 0xE0, 0x03, 0xFD]

theorem decode_freqRd {r : Request} (h : r.opid = 0x37) : decode r = .ok .freqRd := by
  have hdrive : Instr.freqRd.drive r = r := by
    rw [Instr.drive, Opid.freqRd, ← h]
  rw [← hdrive, decode_drive]

/-- The echo `echo` and its terminator have been read; `more` is what the environment answers to reads from then on. -/
def State.afterEcho (echo : List Byte) (more : List (Option RxAnswer)) (s : State) : State :=
  State.echoCompletion (s.afterReads (echo ++ [0xFD]) more)

theorem run_echo {s : State} {echo : List Byte} {more : List (Option RxAnswer)} (hp : s.phase = .rxEcho)
    (hrx : s.mem.rxbuf = []) (hno : (0xFD : Byte) ∉ echo) (hl : echo.length < 64)
    (henv : s.env.rx = echo.map (fun b => some (.byte b)) ++ some (.byte 0xFD) :: more) :
    Host.Core.run Sys2Proof.core (echo.length + 1) s = .next (s.afterEcho echo more) := by
  have hphase : (s.afterReads echo (some (.byte 0xFD) :: more)).phase = .rxEcho := hp
  have hroom : (s.afterReads echo (some (.byte 0xFD) :: more)).mem.rxbuf.length < 64 := by
    simpa [State.afterReads, hrx] using hl
  refine run_append (run_reads (.inl hp) hno (by simpa [hrx] using hl) henv) (run_one ?_)
  rw [step_echo_terminator hphase hroom rfl, State.afterEcho, ← afterReads_afterReads echo [0xFD] (some (.byte 0xFD) :: more)]
  rfl

/-- The state of FREQ.RD before its reply's terminator: the frame was sent, the echo and the reply's bytes were read. -/
def freqRdReplying (s : State) (r : Request) (rest : List Request) (echo reply : List Byte)
    (moreW : List (Option TxAnswer)) (moreA : List (Option RxAnswer)) : State :=
  let sent := State.afterWrites 6 moreW (State.begun .freqRd freqRdFrame { s with port := rest, latch := r })
  State.afterReads reply (some (.byte 0xFD) :: moreA)
    (sent.afterEcho echo (reply.map (fun b => some (.byte b)) ++ some (.byte 0xFD) :: moreA))

/-- The run of FREQ.RD up to its reply's terminator. -/
theorem run_freqRd {s : State} {r : Request} {rest : List Request} {echo reply : List Byte}
    {moreW : List (Option TxAnswer)} {moreA : List (Option RxAnswer)} (h : s.Ready) (hp : s.port = r :: rest)
    (hop : r.opid = 0x37) (hecho : (0xFD : Byte) ∉ echo) (hel : echo.length < 64) (hreply : (0xFD : Byte) ∉ reply)
    (hrl : reply.length < 64) (htx : s.env.tx = List.replicate 6 (some .ok) ++ moreW)
    (hrx : s.env.rx = echo.map (fun b => some (.byte b)) ++ some (.byte 0xFD) ::
      (reply.map (fun b => some (.byte b)) ++ some (.byte 0xFD) :: moreA)) :
    ∃ k, Host.Core.run Sys2Proof.core k s = .next (freqRdReplying s r rest echo reply moreW moreA) := by
  have accepted := run_one (step_sends h hp (decode_freqRd hop) rfl)
  have sent := run_writes (s := State.begun .freqRd freqRdFrame { s with port := rest, latch := r }) (k := 6)
    (txnAtStart_begun (by decide) (by decide)) le_rfl htx
  have echoed := run_echo (s := State.afterWrites 6 moreW (State.begun .freqRd freqRdFrame { s with port := rest, latch := r }))
    rfl rfl hecho hel hrx
  have read := run_reads (s := State.afterEcho echo (reply.map (fun b => some (.byte b)) ++ some (.byte 0xFD) :: moreA)
      (State.afterWrites 6 moreW (State.begun .freqRd freqRdFrame { s with port := rest, latch := r })))
    (.inr rfl) hreply (by simpa [State.afterEcho] using hrl) rfl
  exact ⟨_, run_append accepted (run_append sent (run_append echoed read))⟩

section FreqRdReplying

variable (s : State) (r : Request) (rest : List Request) (echo reply : List Byte) (moreW : List (Option TxAnswer))
  (moreA : List (Option RxAnswer))

theorem freqRdReplying_rxbuf : (freqRdReplying s r rest echo reply moreW moreA).mem.rxbuf = reply := rfl

/-- `EM` tells whether the echo was the frame. -/
theorem freqRdReplying_em :
    (freqRdReplying s r rest echo reply moreW moreA).status.em = !echoEqual (echo ++ [0xFD]) freqRdFrame := rfl

theorem freqRdReplying_trace :
    (freqRdReplying s r rest echo reply moreW moreA).trace = writesOk freqRdFrame ++ readsOf (echo ++ [0xFD] ++ reply) := by
  rw [readsOf_append, ← List.append_assoc]
  rfl

end FreqRdReplying

/-- The echo with its terminator is the frame exactly when the bytes before are the frame's. -/
theorem echoEqual_freqRdFrame (echo : List Byte) :
    echoEqual (echo ++ [0xFD]) freqRdFrame = true ↔ echo = [0xFE, 0xFE, 0x88, 0xE0, 0x03] := by
  rw [echoEqual, beq_iff_eq, show freqRdFrame = [0xFE, 0xFE, 0x88, 0xE0, 0x03] ++ [0xFD] from rfl, List.append_left_inj]

/-- Settles O56: the run up to the reply's terminator, and then the row of FREQ.RD's reply table for eleven bytes. -/
theorem freqRdDeliversTheFrequency : Obligations.FreqRdDeliversTheFrequency := by
  intro s r rest n echo header moreW moreA h hp hop hn hecho hel hheader hhl htx hrx
  have hlen : (header ++ freqEnc n).length = 10 := by
    rw [List.length_append, hhl, freqEnc, bcdBytes_length]
    rfl
  have hno : (0xFD : Byte) ∉ header ++ freqEnc n := by
    rw [List.mem_append, not_or]
    exact ⟨hheader, term_not_mem_freqEnc n⟩
  have hpayload : (header ++ freqEnc n).drop 5 = bytes5List (bytes5Of (freqEnc n)) := by
    rw [← freqEnc_eq_bytes5List, List.drop_left' hhl]
  obtain ⟨k, hrun⟩ := run_freqRd (reply := header ++ freqEnc n) (moreA := moreA) h hp hop hecho hel hno (by omega) htx
    (by simpa using hrx)
  obtain ⟨t, o, e, ph, res, hstep, hdone, hvalue, -⟩ :=
    freqRdReplyTable (freqRdReplying s r rest echo (header ++ freqEnc n) moreW moreA) moreA rfl
      (by rw [freqRdReplying_rxbuf, hlen]; decide) rfl rfl
  obtain ⟨rfl, ⟨v, rfl, hv⟩, hmismatch, hmatch⟩ := hvalue (bytes5Of (freqEnc n)) hlen hpayload
  rw [← freqDec_nibbles, freqDec_bytes5Of_freqEnc hn] at hv
  obtain ⟨-, -, -, hport⟩ := hdone.kept
  have hem := freqRdReplying_em s r rest echo (header ++ freqEnc n) moreW moreA
  refine ⟨k + 1, t, run_append hrun (run_one hstep), hdone.phase, by rw [hdone.status], by rw [hdone.status],
    by rw [hdone.results]; exact hv, hport, by rw [hdone.env], ?trace, fun heq => ?right, fun hne => ?wrong⟩
  case trace =>
    rw [hdone.trace, freqRdReplying_trace, List.append_assoc, ← readsOf_concat]
    simp only [freqRdFrame, List.append_assoc]
  case right =>
    rw [(echoEqual_freqRdFrame echo).2 heq] at hem
    obtain ⟨rfl, -⟩ := hmatch hem
    rw [hdone.status]
    exact ⟨hem, rfl⟩
  case wrong =>
    rw [Bool.eq_false_iff.2 (mt (echoEqual_freqRdFrame echo).1 hne)] at hem
    obtain ⟨rfl, rfl⟩ := hmismatch hem
    rw [hdone.status]
    exact ⟨hem, rfl, rfl⟩

end Sys2Proof.Machine
end

section

/-! PROOFS. The bound on the steps of a transaction whose calls are answered (R132): each step either completes the
operation or leaves fewer calls to be made. -/

namespace Sys2Proof.Machine

/-- The writes still to be made. -/
def writesLeft (s : State) : Nat := if s.phase = .tx then s.mem.txbuf.length - s.txi.toNat else 0

/-- The most reads still to be made: 64 for each frame, less what is stored of the present one. -/
def readsLeft (s : State) : Nat :=
  match s.phase with
  | .idle => 0
  | .tx => 2 * 64
  | .rxEcho => 2 * 64 - s.mem.rxbuf.length
  | .rxReply => 64 - s.mem.rxbuf.length

/-- The next `n` calls are answered. -/
def Answered {α : Type} (n : Nat) (answers : List (Option α)) : Prop := ∀ i, i < n → ∃ a, answers[i]? = some (some a)

theorem Answered.mono {α : Type} {m n : Nat} {answers : List (Option α)} (h : Answered n answers) (hle : m ≤ n) :
    Answered m answers :=
  fun i hi => h i (hi.trans_le hle)

/-- The answer to the next call, and the answers behind it. -/
theorem Answered.next {α : Type} {n : Nat} {answers : List (Option α)} (h : Answered n answers) (hn : 0 < n) :
    ∃ a rest, answers = some a :: rest ∧ Answered (n - 1) rest := by
  obtain ⟨a, ha⟩ := h 0 hn
  cases answers with
  | nil => cases ha
  | cons x rest =>
    cases ha
    exact ⟨a, rest, rfl, fun i hi => h (i + 1) (by omega)⟩

/-- Every call that may still be made is answered. -/
def AllAnswered (s : State) : Prop := Answered (writesLeft s) s.env.tx ∧ Answered (readsLeft s) s.env.rx

/-- The operation has completed, or it is in progress with fewer calls left, all of them answered. -/
def Advances (s t : State) : Prop :=
  t.phase = .idle ∧ t.status.done = true ∨
    t.phase ≠ .idle ∧ writesLeft t + readsLeft t < writesLeft s + readsLeft s ∧ AllAnswered t

section CallsLeft

variable {s : State}

theorem writesLeft_tx (hp : s.phase = .tx) : writesLeft s = s.mem.txbuf.length - s.txi.toNat := if_pos hp

theorem writesLeft_other (hp : s.phase ≠ .tx) : writesLeft s = 0 := if_neg hp

theorem readsLeft_tx (hp : s.phase = .tx) : readsLeft s = 2 * 64 := by simp only [readsLeft, hp]

theorem readsLeft_echo (hp : s.phase = .rxEcho) : readsLeft s = 2 * 64 - s.mem.rxbuf.length := by
  simp only [readsLeft, hp]

theorem readsLeft_reply (hp : s.phase = .rxReply) : readsLeft s = 64 - s.mem.rxbuf.length := by
  simp only [readsLeft, hp]

/-- Before the operation completes at most `TXLEN` writes and twice 64 reads are to be made. -/
theorem callsLeft_le (s : State) : writesLeft s ≤ s.mem.txbuf.length ∧ readsLeft s ≤ 2 * 64 := by
  constructor
  · unfold writesLeft
    split <;> omega
  · unfold readsLeft
    split <;> omega

/-- A byte stored is one read fewer to be made. -/
theorem readsLeft_stored {t : State} {b : Byte} (hp : s.phase = .rxEcho ∨ s.phase = .rxReply) (hpt : t.phase = s.phase)
    (hm : t.mem = s.mem.pushRx b) (hl : s.mem.rxbuf.length < 64) : readsLeft t < readsLeft s := by
  have hpush : t.mem.rxbuf.length = s.mem.rxbuf.length + 1 := by simp [hm]
  rcases hp with hp | hp
  · rw [readsLeft_echo hp, readsLeft_echo (hpt.trans hp)]
    omega
  · rw [readsLeft_reply hp, readsLeft_reply (hpt.trans hp)]
    omega

/-- The frame of the echo complete, only the reply's reads are to be made. -/
theorem readsLeft_echoed {t : State} (hp : s.phase = .rxEcho) (hpt : t.phase = .rxReply) (hm : t.mem.rxbuf = [])
    (hl : s.mem.rxbuf.length < 64) : readsLeft t < readsLeft s := by
  rw [readsLeft_echo hp, readsLeft_reply hpt, hm, List.length_nil]
  omega

/-- Inside a transaction some read is still to be made. -/
theorem readsLeft_pos (h : Inv s) (hp : s.phase ≠ .idle) : 0 < readsLeft s := by
  have room (hr : s.phase = .rxEcho ∨ s.phase = .rxReply) : s.mem.rxbuf.length < 64 := by
    obtain ⟨⟨-, hroom⟩, -⟩ := h.reading_trace hr
    exact hroom
  cases hphase : s.phase with
  | idle => exact absurd hphase hp
  | tx =>
    rw [readsLeft_tx hphase]
    decide
  | rxEcho =>
    have := room (.inl hphase)
    rw [readsLeft_echo hphase]
    omega
  | rxReply =>
    have := room (.inr hphase)
    rw [readsLeft_reply hphase]
    omega

end CallsLeft

/-! ## One step (R122, R124) -/

/-- An answered write advances the operation. -/
theorem advances_of_tx {s : State} (h : Inv s) (hp : s.phase = .tx) (ha : AllAnswered s) :
    ∃ t, step s = .next t ∧ Advances s t := by
  obtain ⟨hi, hrx, -⟩ := h.tx_shape hp
  obtain ⟨hwrites, hreads⟩ := ha
  rw [writesLeft_tx hp] at hwrites
  rw [readsLeft_tx hp] at hreads
  obtain ⟨a, rest, htx, hrest⟩ := hwrites.next (by omega)
  have hb : s.mem.txAt s.txi.toNat = some s.mem.txbuf[s.txi.toNat] := List.getElem?_eq_getElem hi
  rw [step_of_tx hp]
  cases a with
  | fail => exact ⟨_, txStep_fail hb htx, .inl ⟨rfl, rfl⟩⟩
  | ok =>
    obtain ⟨t, ht⟩ : ∃ t, txStep s = .next t ∧ t.phase = (if s.txi.toNat + 1 = s.mem.txbuf.length then .rxEcho else .tx) ∧
        t.mem = s.mem ∧ t.txi = s.txi + 1 ∧ t.env.tx = rest ∧ t.env.rx = s.env.rx :=
      ⟨_, txStep_ok hb htx, rfl, rfl, rfl, rfl, rfl⟩
    obtain ⟨hstep, hpt, hmem, htxi, htxt, hrxt⟩ := ht
    refine ⟨t, hstep, .inr ?_⟩
    rw [AllAnswered, htxt, hrxt, writesLeft_tx hp, readsLeft_tx hp]
    split at hpt
    · next hlast =>
      rw [writesLeft_other (by simp [hpt]), readsLeft_echo hpt, hmem, hrx]
      exact ⟨by simp [hpt], by simp only [List.length_nil]; omega, nofun, hreads⟩
    · next hlast =>
      rw [writesLeft_tx hpt, readsLeft_tx hpt, hmem, htxi, txi_succ_toNat hb h.txbuf_length]
      exact ⟨by simp [hpt], by omega, hrest.mono (by omega), hreads⟩

/-- A read that leaves the operation in progress with fewer reads to be made advances it. -/
theorem advances_of_readsLeft_lt {s t : State} (hp : s.phase = .rxEcho ∨ s.phase = .rxReply)
    (hpt : t.phase = .rxEcho ∨ t.phase = .rxReply) (hlt : readsLeft t < readsLeft s)
    (hrest : Answered (readsLeft s - 1) t.env.rx) : Advances s t := by
  have other {u : State} (hu : u.phase = .rxEcho ∨ u.phase = .rxReply) : writesLeft u = 0 :=
    writesLeft_other (by rcases hu with hu | hu <;> simp [hu])
  refine .inr ⟨not_idle_of_reading hpt, ?_, ?_, hrest.mono (by omega)⟩
  · rw [other hp, other hpt]
    omega
  · rw [other hpt]
    exact nofun

/-- An answered read advances the operation. -/
theorem advances_of_reading {s : State} (h : Inv s) (hp : s.phase = .rxEcho ∨ s.phase = .rxReply) (ha : AllAnswered s) :
    ∃ t, step s = .next t ∧ Advances s t := by
  obtain ⟨⟨-, hroom⟩, -⟩ := h.reading_trace hp
  obtain ⟨-, hreads⟩ := ha
  have hl : s.mem.rxbuf.length < 64 := hroom
  obtain ⟨a, rest, hrx, hrest⟩ := hreads.next (readsLeft_pos h (not_idle_of_reading hp))
  refine ⟨_, (step_of_reading hp).trans (rxStep_answered hl hrx), ?_⟩
  obtain ⟨b, -, -, -, heq⟩ | ⟨b, -, -, -, heq⟩ | ⟨-, hecho, heq⟩ | ⟨-, -, heq⟩ | ⟨-, e, -, heq⟩ :=
    afterRead_cases a { s with env := { s.env with rx := rest }, trace := s.trace ++ [.got a] } <;> rw [heq]
  · exact advances_of_readsLeft_lt hp hp (readsLeft_stored (b := b) hp rfl rfl hl) hrest
  · exact .inl ⟨rfl, rfl⟩
  · exact advances_of_readsLeft_lt hp (.inr rfl) (readsLeft_echoed hecho rfl rfl hl) hrest
  · exact .inl ⟨rfl, rfl⟩
  · exact .inl ⟨rfl, rfl⟩

/-- Inside a transaction a step whose call is answered advances the operation. -/
theorem step_advances {s : State} (h : Inv s) (hp : s.phase ≠ .idle) (ha : AllAnswered s) :
    ∃ t, step s = .next t ∧ Advances s t := by
  cases hphase : s.phase with
  | idle => exact absurd hphase hp
  | tx => exact advances_of_tx h hphase ha
  | rxEcho => exact advances_of_reading h (.inl hphase) ha
  | rxReply => exact advances_of_reading h (.inr hphase) ha

/-! ## All steps -/

/-- The operation completes within as many steps as calls are left. -/
theorem completes_within {n : Nat} {s : State} (h : Inv s) (hp : s.phase ≠ .idle) (ha : AllAnswered s)
    (hn : writesLeft s + readsLeft s ≤ n) :
    ∃ k t, k ≤ n ∧ Host.Core.run Sys2Proof.core k s = .next t ∧ t.phase = .idle ∧ t.status.busy = false ∧
      t.status.done = true := by
  induction n generalizing s with
  | zero =>
    have := readsLeft_pos h hp
    omega
  | succ n ih =>
    obtain ⟨t, hstep, hend | ⟨hpt, hlt, hat⟩⟩ := step_advances h hp ha
    · obtain ⟨hidle, hdone⟩ := hend
      have hinv := stepKeepsInvariant s t h hstep
      have hbusy : t.status.busy = false := Bool.eq_false_iff.2 fun hb => hinv.notBoth ⟨hb, hdone⟩
      exact ⟨1, t, by omega, run_one hstep, hidle, hbusy, hdone⟩
    · obtain ⟨k, u, hk, hrun, hu⟩ := ih (stepKeepsInvariant s t h hstep) hpt hat (by omega)
      exact ⟨1 + k, u, by omega, run_append (run_one hstep) hrun, hu⟩

/-- Settles O54: at most `TXLEN` writes and 128 reads are left at any time. -/
theorem answeredTransactionCompletes : Obligations.AnsweredTransactionCompletes := by
  intro s h hp htx hrx
  obtain ⟨hwrites, hreads⟩ := callsLeft_le s
  exact completes_within h hp ⟨Answered.mono htx hwrites, Answered.mono hrx hreads⟩ (Nat.add_le_add hwrites hreads)

end Sys2Proof.Machine
end

section

/-! PROOFS. What the caller reads (R16, R21, R26, R28 of `10_state.md`): the bits of `STATUS`, each register, and the result
record. -/

namespace Sys2Proof.Machine

/-! ## The word `STATUS` (R21) -/

theorem flagCode_le (b : Bool) : flagCode b ≤ 1 := by
  cases b <;> decide

theorem outcomeCode_le (o : TxnOutcome) : outcomeCode o ≤ 4 := by
  cases o <;> decide

theorem errCode_le (e : ErrCode) : errCode e ≤ 6 := by
  cases e <;> decide

theorem phaseCode_le (p : Phase) : phaseCode p ≤ 3 := by
  cases p <;> decide

/-- The codes fit their fields: the word is their sum at the fields' places. -/
theorem statusWord_toNat (st : Status) :
    (statusWord st).toNat = flagCode st.busy + 2 * flagCode st.done + 4 * flagCode st.em + 8 * outcomeCode st.outcome +
      64 * errCode st.err + 512 * phaseCode st.errph := by
  have := flagCode_le st.busy
  have := flagCode_le st.done
  have := flagCode_le st.em
  have := outcomeCode_le st.outcome
  have := errCode_le st.err
  have := phaseCode_le st.errph
  rw [statusWord, BitVec.toNat_ofNat, Nat.mod_eq_of_lt (by omega)]

/-- A bit of a word that holds a flag's code is the flag. -/
theorem getLsbD_of_flag {w : BitVec 16} {i : Nat} {b : Bool} (h : w.toNat / 2 ^ i % 2 = flagCode b) : w.getLsbD i = b := by
  rw [← BitVec.testBit_toNat, Nat.testBit_eq_decide_div_mod_eq, h]
  cases b <;> rfl

/-- Settles O48: each field is cut out of the sum of the codes. -/
theorem statusWordFields : Obligations.StatusWordFields := by
  intro st
  have hbusy := flagCode_le st.busy
  have hdone := flagCode_le st.done
  have hem := flagCode_le st.em
  have houtcome := outcomeCode_le st.outcome
  have herr := errCode_le st.err
  have herrph := phaseCode_le st.errph
  have hword := statusWord_toNat st
  have outcome : (statusWord st).toNat / 8 % 8 = outcomeCode st.outcome := by omega
  have err : (statusWord st).toNat / 64 % 8 = errCode st.err := by omega
  have errph : (statusWord st).toNat / 512 % 4 = phaseCode st.errph := by omega
  refine ⟨getLsbD_of_flag (by omega), getLsbD_of_flag (by omega), getLsbD_of_flag (by omega), ?_, ?_, ?_, by omega⟩
  · rw [outcome]
    cases st.outcome <;> decide
  · rw [err]
    cases st.err <;> decide
  · rw [errph]
    cases st.errph <;> decide

/-! ## Registers (R28, R207) -/

/-- `STATUS` is read at any time. -/
theorem callerRead_status (s : State) : s.callerRead .status = some (statusWord s.status).toNat := by
  rw [State.callerRead, if_neg (fun h => h.2 rfl)]
  rfl

theorem callerRead_busy {s : State} {r : CallerReg} (h : s.status.busy = true) (hr : r ≠ .status) :
    s.callerRead r = none := if_pos ⟨h, hr⟩

theorem callerRead_idle {s : State} (h : s.status.busy = false) (r : CallerReg) : s.callerRead r = s.regValue r := by
  rw [State.callerRead, if_neg (by simp [h])]

/-- Settles O3: the address registers are constants. -/
theorem addressRegistersReadAlways : Obligations.AddressRegistersReadAlways :=
  fun _ => ⟨rfl, rfl, fun h => ⟨callerRead_idle h _, callerRead_idle h _⟩⟩

/-- A buffer's element, none at or above its length (R17, R18). -/
theorem map_toNat_getElem? {buf : List Byte} :
    (∀ (i : Nat) (b : Byte), buf[i]? = some b → (buf[i]?).map BitVec.toNat = some b.toNat) ∧
      ∀ i : Nat, buf.length ≤ i → (buf[i]?).map BitVec.toNat = none :=
  ⟨fun _ _ h => by rw [h]; rfl, fun _ h => by rw [List.getElem?_eq_none h]; rfl⟩

/-- The register `TXLEN` holds the length of any sequence within the capacity. -/
theorem State.txlen_toNat {s : State} (h : s.mem.txbuf.length ≤ 64) : s.txlen.toNat = s.mem.txbuf.length := by
  rw [State.txlen, BitVec.toNat_ofNat, Nat.mod_eq_of_lt (by omega)]

/-- The result record of a completed operation (R16). -/
theorem resultRecord_done {s : State} (h : s.status.done = true) :
    s.resultRecord = some
      { err := s.status.err, errph := s.status.errph, outcome := s.status.outcome, em := s.status.em
        value := s.results.value, bytes := (bytes5List s.results.bytes).take s.results.blen.toNat
        modeSel := s.results.modeSel, filter := s.results.filter, hasFilter := s.results.hasFilter
        rx := s.mem.rxbuf, echolen := s.echolen, txi := s.txi } := if_pos h

theorem resultRecord_none {s : State} (h : s.status.done = false) : s.resultRecord = none := by
  rw [State.resultRecord, if_neg (by simp [h])]

/-- Settles O49: register by register, then the record field by field. -/
theorem callerReadsWhenNotBusy : Obligations.CallerReadsWhenNotBusy := by
  intro s
  refine ⟨callerRead_status s, fun h r hr => callerRead_busy h hr, fun h => ?registers, resultRecord_none,
    fun h => ⟨_, resultRecord_done h, rfl, rfl, rfl, rfl, rfl, fun hlen => ?bytes, rfl, rfl, rfl, rfl, fun _ => rfl, rfl,
      rfl⟩⟩
  case bytes =>
    have five : (bytes5List s.results.bytes).length = 5 := rfl
    exact ⟨by rw [List.length_take, five, Nat.min_eq_left hlen], fun i hi => List.getElem?_take_of_lt hi⟩
  case registers =>
    obtain ⟨txSome, txNone⟩ := map_toNat_getElem? (buf := s.mem.txbuf)
    obtain ⟨rxSome, rxNone⟩ := map_toNat_getElem? (buf := s.mem.rxbuf)
    simp only [callerRead_idle h]
    refine ⟨rfl, rfl, fun i hi => ?_, rfl, rfl, rfl, rfl, txSome, txNone, rxSome, rxNone, fun hwf => ?_, rfl, rfl, ?_, rfl, rfl⟩
    · simp only [State.regValue]
      rw [List.getElem?_eq_none (show (bytes5List s.results.bytes).length ≤ i from hi)]
      rfl
    · obtain ⟨htx, hrx⟩ := (Memory.wf_iff _).1 hwf
      exact ⟨congrArg some (State.txlen_toNat htx), congrArg some (State.rxlen_toNat hrx)⟩
    · simp only [State.regValue]
      cases s.phase <;> decide

end Sys2Proof.Machine
end

section

/-! PROOFS. The wire rows of the operation table (R61) against the reading of a sequence (R83): the bytes a row fixes, what a
frame of each row is read as, and that no frame belongs to two rows. -/

namespace Sys2Proof.Machine

/-! ## Bytes under a mask (R61) -/

theorem and_open_byte (b : Byte) : b &&& 0x00 = 0x00 := BitVec.and_zero

theorem and_fixed_byte (b : Byte) : b &&& 0xFF = b := BitVec.and_allOnes

/-- The number whose bits are all ones is that of bytes 0xFF. -/
theorem frameNumber_allOnes (n : Nat) : frameNumber (List.replicate n 0xFF) = 2 ^ (8 * n) - 1 := by
  induction n with
  | zero => rfl
  | succ n ih =>
    have hpos := Nat.two_pow_pos (8 * n)
    rw [List.replicate_succ', frameNumber_snoc, ih, Nat.mul_succ, pow_add, show (0xFF : Byte).toNat = 255 from rfl]
    omega

theorem zipWith_and_allOnes (f : List Byte) : List.zipWith (· &&& ·) f (List.replicate f.length 0xFF) = f := by
  induction f with
  | nil => rfl
  | cons b f ih => rw [List.length_cons, List.replicate_succ, List.zipWith_cons_cons, ih, and_fixed_byte]

/-- A frame of a row that fixes every bit is the row's pattern. -/
theorem eq_of_belongs_fixed {mnemonic : String} {f m : List Byte}
    (h : (WireRow.fixed mnemonic m.length (frameNumber m)).belongs f = true) : f = m := by
  obtain ⟨hl, hz, -⟩ := WireRow.belongs_bytes h rfl (frameNumber_allOnes m.length) rfl (by simp [WireRow.fixed])
  rw [← hz, ← show f.length = m.length from hl, zipWith_and_allOnes]

/-- Seven bytes of which the pattern leaves the sixth open. -/
theorem bytes_of_mask_seven {f : List Byte} {c : Byte} (hl : f.length = 7)
    (hz : List.zipWith (· &&& ·) f [0xFF, 0xFF, 0xFF, 0xFF, 0xFF, 0x00, 0xFF] = [0xFE, 0xFE, 0x88, 0xE0, c, 0x00, 0xFD]) :
    ∃ x, f = [0xFE, 0xFE, 0x88, 0xE0, c, x, 0xFD] := by
  match f, hl with
  | [_, _, _, _, _, x, _], _ =>
    simp only [List.zipWith_cons_cons, List.zipWith_nil_left, and_fixed_byte, and_open_byte, List.cons.injEq, and_true,
      true_and] at hz
    obtain ⟨rfl, rfl, rfl, rfl, rfl, rfl⟩ := hz
    exact ⟨x, rfl⟩

/-- Eight bytes of which the pattern leaves the seventh open. -/
theorem bytes_of_mask_eight {f : List Byte} {c y : Byte} (hl : f.length = 8)
    (hz : List.zipWith (· &&& ·) f [0xFF, 0xFF, 0xFF, 0xFF, 0xFF, 0xFF, 0x00, 0xFF] =
      [0xFE, 0xFE, 0x88, 0xE0, c, y, 0x00, 0xFD]) : ∃ x, f = [0xFE, 0xFE, 0x88, 0xE0, c, y, x, 0xFD] := by
  match f, hl with
  | [_, _, _, _, _, _, x, _], _ =>
    simp only [List.zipWith_cons_cons, List.zipWith_nil_left, and_fixed_byte, and_open_byte, List.cons.injEq, and_true,
      true_and] at hz
    obtain ⟨rfl, rfl, rfl, rfl, rfl, rfl, rfl⟩ := hz
    exact ⟨x, rfl⟩

/-- Eleven bytes of which the pattern leaves the payload open. -/
theorem bytes_of_mask_eleven {f : List Byte} {c : Byte} (hl : f.length = 11)
    (hz : List.zipWith (· &&& ·) f [0xFF, 0xFF, 0xFF, 0xFF, 0xFF, 0x00, 0x00, 0x00, 0x00, 0x00, 0xFF] =
      [0xFE, 0xFE, 0x88, 0xE0, c, 0x00, 0x00, 0x00, 0x00, 0x00, 0xFD]) :
    ∃ payload, payload.length = 5 ∧ f = [0xFE, 0xFE, 0x88, 0xE0, c] ++ payload ++ [0xFD] := by
  match f, hl with
  | [_, _, _, _, _, p0, p1, p2, p3, p4, _], _ =>
    simp only [List.zipWith_cons_cons, List.zipWith_nil_left, and_fixed_byte, and_open_byte, List.cons.injEq, and_true,
      true_and] at hz
    obtain ⟨rfl, rfl, rfl, rfl, rfl, rfl⟩ := hz
    exact ⟨[p0, p1, p2, p3, p4], rfl, rfl⟩

/-! ## What a frame of a row is read as (R83) -/

/-- The frame `f` is read as an operation of the name `mnemonic`. -/
def ReadAs (f : List Byte) (mnemonic : String) : Prop := ∃ op, identify f = some op ∧ op.mnemonic = mnemonic

theorem readAs_of_fixed {mnemonic : String} {f m : List Byte}
    (h : (WireRow.fixed mnemonic m.length (frameNumber m)).belongs f = true) (hm : ReadAs m mnemonic) :
    ReadAs f mnemonic := by
  rwa [eq_of_belongs_fixed h]

theorem term_not_mem_of_bcd {payload : List Byte} (h : payload.all isBcdByte = true) : (0xFD : Byte) ∉ payload := by
  intro hmem
  exact absurd (List.all_eq_true.1 h _ hmem) (by decide)

theorem readAs_memBank {f : List Byte} {y : Byte} (hf : f = [0xFE, 0xFE, 0x88, 0xE0, 0x08, 0xA0, y, 0xFD])
    (hd : WireConstraint.bank.holds f = true) : ReadAs f "MEM.BANK" := by
  subst hf
  have hbank : 1 ≤ y.toNat ∧ y.toNat ≤ 5 := by
    by_contra hno
    have hsome : (bankByte y).isSome = true := hd
    rw [bankByte_illegal hno] at hsome
    cases hsome
  exact ⟨_, identify_memBank hbank, rfl⟩

theorem readAs_modeSet {f : List Byte} {c : Byte} (hf : f = [0xFE, 0xFE, 0x88, 0xE0, 0x06, c, 0xFD])
    (hd : WireConstraint.mode.holds f = true) : ReadAs f "MODE.SET" := by
  subst hf
  obtain ⟨sel, hsel⟩ := Option.isSome_iff_exists.1 (show (modeName c).isSome = true from hd)
  exact ⟨_, identify_modeSet hsel, rfl⟩

theorem readAs_freqSet {f payload : List Byte} (hl : payload.length = 5)
    (hf : f = [0xFE, 0xFE, 0x88, 0xE0, 0x00] ++ payload ++ [0xFD]) (hd : WireConstraint.frequency.holds f = true) :
    ReadAs f "FREQ.SET" := by
  obtain ⟨hbcd, -⟩ := (Bool.and_eq_true _ _).mp hd
  have htake : (f.drop 5).take 5 = payload := by
    rw [hf, List.append_assoc]
    exact List.take_left' hl
  rw [htake] at hbcd
  rw [hf]
  exact ⟨_, identify_freqSet hl (term_not_mem_of_bcd hbcd), rfl⟩

/-- A frame that belongs to a row is read as the row's operation: the rows that fix every bit by their pattern, the other
four by the bytes they leave open. -/
theorem readAs_of_row {f : List Byte} {row : WireRow} (hrow : row ∈ wireRows) (h : row.belongs f = true) :
    ReadAs f row.mnemonic := by
  simp only [wireRows, List.cons_append, List.nil_append, List.mem_cons, List.not_mem_nil, or_false] at hrow
  rcases hrow with rfl | rfl | rfl | rfl | rfl | rfl | rfl | rfl | rfl | rfl | rfl | rfl | rfl | rfl
  · exact readAs_of_fixed (m := [0xFE, 0xFE, 0x88, 0xE0, 0x18, 0x00, 0xFD]) h ⟨.pwrOff, by decide, rfl⟩
  · exact readAs_of_fixed (m := [0xFE, 0xFE, 0x88, 0xE0, 0x18, 0x01, 0xFD]) h ⟨.pwrOn, by decide, rfl⟩
  · exact readAs_of_fixed (m := [0xFE, 0xFE, 0x88, 0xE0, 0x07, 0x00, 0xFD]) h ⟨.vfoA, by decide, rfl⟩
  · exact readAs_of_fixed (m := [0xFE, 0xFE, 0x88, 0xE0, 0x07, 0x01, 0xFD]) h ⟨.vfoB, by decide, rfl⟩
  · exact readAs_of_fixed (m := [0xFE, 0xFE, 0x88, 0xE0, 0x08, 0xFD]) h ⟨.memMode, by decide, rfl⟩
  · obtain ⟨hl, hz, hd⟩ := WireRow.belongs_bytes (m := [0xFE, 0xFE, 0x88, 0xE0, 0x08, 0xA0, 0x00, 0xFD])
      (k := [0xFF, 0xFF, 0xFF, 0xFF, 0xFF, 0xFF, 0x00, 0xFF]) h rfl rfl rfl rfl
    obtain ⟨bank, hf⟩ := bytes_of_mask_eight hl hz
    exact readAs_memBank hf hd
  · obtain ⟨hl, hz, hd⟩ := WireRow.belongs_bytes (m := [0xFE, 0xFE, 0x88, 0xE0, 0x08, 0x00, 0xFD])
      (k := [0xFF, 0xFF, 0xFF, 0xFF, 0xFF, 0x00, 0xFF]) h rfl rfl rfl rfl
    obtain ⟨c, rfl⟩ := bytes_of_mask_seven hl hz
    exact ⟨_, identify_memChan hd, rfl⟩
  · exact readAs_of_fixed (m := [0xFE, 0xFE, 0x88, 0xE0, 0x08, 0x01, 0x00, 0xFD]) h ⟨.memChanSpecial, by decide, rfl⟩
  · exact readAs_of_fixed (m := [0xFE, 0xFE, 0x88, 0xE0, 0x03, 0xFD]) h ⟨.freqRd, by decide, rfl⟩
  · obtain ⟨hl, hz, hd⟩ := WireRow.belongs_bytes
      (m := [0xFE, 0xFE, 0x88, 0xE0, 0x00, 0x00, 0x00, 0x00, 0x00, 0x00, 0xFD])
      (k := [0xFF, 0xFF, 0xFF, 0xFF, 0xFF, 0x00, 0x00, 0x00, 0x00, 0x00, 0xFF]) h rfl rfl rfl rfl
    obtain ⟨payload, hpl, hf⟩ := bytes_of_mask_eleven hl hz
    exact readAs_freqSet hpl hf hd
  · exact readAs_of_fixed (m := [0xFE, 0xFE, 0x88, 0xE0, 0x04, 0xFD]) h ⟨.modeRd, by decide, rfl⟩
  · obtain ⟨hl, hz, hd⟩ := WireRow.belongs_bytes (m := [0xFE, 0xFE, 0x88, 0xE0, 0x06, 0x00, 0xFD])
      (k := [0xFF, 0xFF, 0xFF, 0xFF, 0xFF, 0x00, 0xFF]) h rfl rfl rfl rfl
    obtain ⟨c, hf⟩ := bytes_of_mask_seven hl hz
    exact readAs_modeSet hf hd
  · exact readAs_of_fixed (m := [0xFE, 0xFE, 0x88, 0xE0, 0x1C, 0x00, 0x00, 0xFD]) h ⟨.pttRx, by decide, rfl⟩
  · exact readAs_of_fixed (m := [0xFE, 0xFE, 0x88, 0xE0, 0x1C, 0x00, 0x01, 0xFD]) h ⟨.pttTx, by decide, rfl⟩

/-! ## No frame belongs to two rows (R61) -/

/-- The name of its operation and the length of its frames single out a row. -/
theorem wireRow_eq : ∀ row ∈ wireRows, ∀ other ∈ wireRows, other.mnemonic = row.mnemonic → other.length = row.length →
    other = row := by
  decide

theorem length_of_belongs {row : WireRow} {f : List Byte} (h : row.belongs f = true) : f.length = row.length := by
  simp only [WireRow.belongs, Bool.and_eq_true, beq_iff_eq] at h
  obtain ⟨⟨hl, -⟩, -⟩ := h
  exact hl

/-- Settles O58: two rows of one frame have the operation it is read as and its length in common. -/
theorem wireRowsAgreeWithTheReading : Obligations.WireRowsAgreeWithTheReading := by
  intro f row hrow h
  refine ⟨readAs_of_row hrow h, fun other hother h' => ?_⟩
  obtain ⟨op, hop, hname⟩ := readAs_of_row hrow h
  obtain ⟨op', hop', hname'⟩ := readAs_of_row hother h'
  obtain rfl : op = op' := Option.some.inj (hop.symm.trans hop')
  exact wireRow_eq row hrow other hother (hname'.symm.trans hname) ((length_of_belongs h').symm.trans (length_of_belongs h))

end Sys2Proof.Machine
end
